-- ==== Sys2Proof/Word.lean ====
section
/-! DEFINITION. The words of the morituri checksum core: the register widths of 00_scope.md R7
and the interface word widths of 00_scope.md R8. Bit 0 is the least significant bit of every
value (R11), which is the numbering of `BitVec`. -/

namespace Sys2Proof

/-- A data byte, a track number or a register number: 8 bits unsigned (R7). -/
abbrev Byte := BitVec 8

/-- One 16-bit little-endian PCM value, half of a sample (20_memory.md R66). -/
abbrev Word16 := BitVec 16

/-- The accumulator and the sample value: 32 bits unsigned, wrapping (R7, R65). -/
abbrev Word32 := BitVec 32

/-- Offsets, lengths, counters, operands and payloads: 64 bits (R7, R68). -/
abbrev Word64 := BitVec 64

/-- A command word: 72 bits (R8, 30_encoding.md R90). -/
abbrev CmdWord := BitVec 72

/-- A response word: a 2-bit status over 64 bits of data (R8, R91). -/
abbrev RspWord := BitVec 66

/-- An event word: an 8-bit code over two 64-bit payloads (R8, R92). -/
abbrev EvtWord := BitVec 136

end Sys2Proof
end

