-- ==== Sys2Proof/Syntax.lean ====
section
/-! DEFINITION. The commands of the core (30_encoding.md R93) and the names its fields take.
One constructor of `Instr` per row of spec/opcode_table.json. Instruction = command (R9). -/

namespace Sys2Proof

/-- The two checksum algorithms (30_encoding.md R98). -/
inductive Algorithm where
  | crc32
  | accurateRip
deriving DecidableEq, Repr

/-- The agents of 00_scope.md R10, as senders of commands and consumers of events.
The core does not know which agent sent a command and does not check it (R10, R258). -/
inductive Agent where
  | caller
  | collaborator
deriving DecidableEq, Repr

/-- The twelve opcodes of the opcode map (30_encoding.md R93). -/
inductive Opcode where
  | setalg | settrk | setstart | setlen | notfound | start
  | duration | cancel | chunk | byte | eos | rd
deriving DecidableEq, Repr

/-- A command with its operands (30_encoding.md R93, R94). -/
inductive Instr where
  /-- `SETALG alg` (43_session.md R191). -/
  | setalg (alg : Algorithm)
  /-- `SETTRK trackNumber, trackCount` (43_session.md R192). -/
  | settrk (trackNumber trackCount : Byte)
  /-- `SETSTART frameStart`, in samples (43_session.md R193). -/
  | setstart (frameStart : Word64)
  /-- `SETLEN frameLength`, in samples, two's complement, negative for unknown (43_session.md R194). -/
  | setlen (frameLength : Word64)
  /-- `NOTFOUND` (43_session.md R196). -/
  | notfound
  /-- `START` (43_session.md R195). -/
  | start
  /-- `DURATION total`, in samples (43_session.md R197). -/
  | duration (total : Word64)
  /-- `CANCEL` (43_session.md R199). -/
  | cancel
  /-- `CHUNK offset`, in samples (40_frame_assembler.md R121). -/
  | chunk (offset : Word64)
  /-- `BYTE data` (40_frame_assembler.md R122). -/
  | byte (data : Byte)
  /-- `EOS` (43_session.md R200). -/
  | eos
  /-- `RD reg`; numbers above 14 are reserved (44_readout.md R230, 30_encoding.md R102). -/
  | rd (reg : Byte)
deriving DecidableEq, Repr

end Sys2Proof
end

