-- ==== Sys2Proof/WellFormed.lean ====
section
/-! DEFINITION. Which terms of `Instr` are well-formed commands. The operand types already rule out
every reserved operand bit of 30_encoding.md R95 (`SETALG` above 1, `SETTRK` above 16 bits, `BYTE`
above 8 bits, an operand on a command that has none), so the one check left is the reserved
register numbers of R102. Whether a 72-bit WORD is well-formed is Decode.lean's `CmdWord.wf`. -/

namespace Sys2Proof

/-- The register numbers 15 to 255 are reserved (30_encoding.md R102); every other operand value is
an operand of its command (R94, 43_session.md R192 to R194). -/
def Instr.wf : Instr → Bool
  | .setalg _ => true
  | .settrk _ _ => true
  | .setstart _ => true
  | .setlen _ => true
  | .notfound => true
  | .start => true
  | .duration _ => true
  | .cancel => true
  | .chunk _ => true
  | .byte _ => true
  | .eos => true
  | .rd reg => decide (reg.toNat ≤ 14)

end Sys2Proof
end

