-- ==== Sys2Proof/Decode.lean ====
section
/-! DEFINITION. Decoding and encoding of command words, 30_encoding.md R90 to R96. A command word is a
72-bit number with no byte order (20_memory.md R68): the opcode in bits 71 to 64, the operand in bits
63 to 0. Decoding is total: a word is a command, a reserved opcode, or a known opcode with a
reserved operand bit set, and the last two are named, never read as a neighbour. -/

namespace Sys2Proof

/-- The opcode field, bits 71 to 64 (R90). -/
def opcodeField (w : CmdWord) : Byte := w.extractLsb' 64 8

/-- The operand field, bits 63 to 0 (R90). -/
def operandField (w : CmdWord) : Word64 := w.extractLsb' 0 64

/-- Format `CMD`: the concatenation of opcode and operand (R90, R105). -/
def cmdWord (opcode : Byte) (operand : Word64) : CmdWord := opcode ++ operand

/-- The opcode values of the opcode map (R93). -/
def Opcode.code : Opcode → Byte
  | .setalg   => 0x01#8
  | .settrk   => 0x02#8
  | .setstart => 0x03#8
  | .setlen   => 0x04#8
  | .notfound => 0x05#8
  | .start    => 0x08#8
  | .duration => 0x09#8
  | .cancel   => 0x0A#8
  | .chunk    => 0x10#8
  | .byte     => 0x11#8
  | .eos      => 0x12#8
  | .rd       => 0x20#8

/-- The opcode map read the other way; every opcode value not in R93 is reserved (R96). -/
def Opcode.ofCode (c : Byte) : Option Opcode :=
  match c.toNat with
  | 0x01 => some .setalg
  | 0x02 => some .settrk
  | 0x03 => some .setstart
  | 0x04 => some .setlen
  | 0x05 => some .notfound
  | 0x08 => some .start
  | 0x09 => some .duration
  | 0x0A => some .cancel
  | 0x10 => some .chunk
  | 0x11 => some .byte
  | 0x12 => some .eos
  | 0x20 => some .rd
  | _    => none

/-- The operand bits that must be zero (R95): those the opcode map assigns to no field. -/
def Opcode.reservedMask : Opcode → Word64
  | .setalg   => 0xFFFFFFFFFFFFFFFE#64
  | .settrk   => 0xFFFFFFFFFFFF0000#64
  | .setstart => 0#64
  | .setlen   => 0#64
  | .notfound => 0xFFFFFFFFFFFFFFFF#64
  | .start    => 0xFFFFFFFFFFFFFFFF#64
  | .duration => 0#64
  | .cancel   => 0xFFFFFFFFFFFFFFFF#64
  | .chunk    => 0#64
  | .byte     => 0xFFFFFFFFFFFFFF00#64
  | .eos      => 0xFFFFFFFFFFFFFFFF#64
  | .rd       => 0xFFFFFFFFFFFFFF00#64

/-- The column `mask` of spec/opcode_table.json: the opcode byte and the reserved-zero operand bits. -/
def Opcode.tableMask (op : Opcode) : CmdWord := cmdWord 0xFF#8 op.reservedMask

/-- The column `match` of spec/opcode_table.json. -/
def Opcode.tableMatch (op : Opcode) : CmdWord := cmdWord op.code 0#64

/-- The agent that issues a command (R93, column "issued by"); the core does not check it (R258). -/
def Opcode.issuer : Opcode → Agent
  | .setalg   => .caller
  | .settrk   => .caller
  | .setstart => .caller
  | .setlen   => .caller
  | .notfound => .collaborator
  | .start    => .caller
  | .duration => .collaborator
  | .cancel   => .caller
  | .chunk    => .collaborator
  | .byte     => .collaborator
  | .eos      => .collaborator
  | .rd       => .caller

/-- The opcode of a command (R93). -/
def Instr.opcode : Instr → Opcode
  | .setalg _   => .setalg
  | .settrk _ _ => .settrk
  | .setstart _ => .setstart
  | .setlen _   => .setlen
  | .notfound   => .notfound
  | .start      => .start
  | .duration _ => .duration
  | .cancel     => .cancel
  | .chunk _    => .chunk
  | .byte _     => .byte
  | .eos        => .eos
  | .rd _       => .rd

/-- The `ALG` codes: 0 is CRC32, 1 is AccurateRip (R98). -/
def Algorithm.code : Algorithm → BitVec 1
  | .crc32       => 0#1
  | .accurateRip => 1#1

/-- The algorithm an `ALG` code selects (R98). -/
def Algorithm.ofCode (c : BitVec 1) : Algorithm := if c = 1#1 then .accurateRip else .crc32

/-- The instruction an opcode and its operand field stand for; fields are taken with no shift, no
scaling and no sign extension (R93, R94). -/
def Opcode.build (op : Opcode) (x : Word64) : Instr :=
  match op with
  | .setalg   => .setalg (Algorithm.ofCode (x.extractLsb' 0 1))
  | .settrk   => .settrk (x.extractLsb' 0 8) (x.extractLsb' 8 8)
  | .setstart => .setstart x
  | .setlen   => .setlen x
  | .notfound => .notfound
  | .start    => .start
  | .duration => .duration x
  | .cancel   => .cancel
  | .chunk    => .chunk x
  | .byte     => .byte (x.extractLsb' 0 8)
  | .eos      => .eos
  | .rd       => .rd (x.extractLsb' 0 8)

/-- What a command word decodes to. -/
inductive Decoded where
  /-- A command whose reserved operand bits are zero. -/
  | instr (i : Instr)
  /-- An opcode outside the opcode map (R96). -/
  | reservedOpcode (code : Byte)
  /-- A command of the map with a reserved operand bit set: still that command, refused with
  `RSN_OPERAND`, never `RSN_OPCODE` (R95). -/
  | reservedBits (op : Opcode) (operand : Word64)
deriving DecidableEq, Repr

/-- Decode a command word (R93 to R96): total, and every word outside the table refused by name. -/
def decode (w : CmdWord) : Decoded :=
  match Opcode.ofCode (opcodeField w) with
  | none => .reservedOpcode (opcodeField w)
  | some op =>
    if operandField w &&& op.reservedMask = 0#64 then .instr (op.build (operandField w))
    else .reservedBits op (operandField w)

/-- A word is well-formed when its opcode is one of R93 and its reserved operand bits are zero (R95). -/
def CmdWord.wf (w : CmdWord) : Bool :=
  match Opcode.ofCode (opcodeField w) with
  | none => false
  | some op => operandField w &&& op.reservedMask == 0#64

/-- The operand field of a command (R93, R94). -/
def Instr.operand : Instr → Word64
  | .setalg alg             => alg.code.setWidth 64
  | .settrk number count    => (count ++ number).setWidth 64
  | .setstart frameStart    => frameStart
  | .setlen frameLength     => frameLength
  | .notfound               => 0#64
  | .start                  => 0#64
  | .duration total         => total
  | .cancel                 => 0#64
  | .chunk offset           => offset
  | .byte data              => data.setWidth 64
  | .eos                    => 0#64
  | .rd reg                 => reg.setWidth 64

/-- The command word of a command: opcode over operand (R90, R105). -/
def encode (i : Instr) : CmdWord := cmdWord i.opcode.code i.operand

/-- The command word whose bits are `w`, every bit from `nbits` up being zero. The table numbers the
bits of a word from its least significant one, as R11 and R90 do. -/
def tableWord (nbits w : Nat) : CmdWord := BitVec.ofNat 72 (w % 2 ^ nbits)

/-- The instruction the decoder reads from the word whose bits are `w`; a number with a bit above 71
is no command word, since 72 bits is the only length (R90, R104). -/
def decodeTableWord (nbits w : Nat) : Option Instr :=
  if w % 2 ^ nbits < 2 ^ 72 then
    match decode (tableWord nbits w) with
    | .instr i => some i
    | .reservedOpcode _ => none
    | .reservedBits _ _ => none
  else none

end Sys2Proof
end

