-- ==== Sys2Proof/Config.lean ====
section
/-! DEFINITION. The constants of the core (00_scope.md R6, 41_crc32.md R140). All of them are fixed
by the spec: no rule of it leaves a value free, so this file declares no opaque constant. -/

namespace Sys2Proof.Config

/-- `SAMPLES_PER_FRAME`: samples in one sector (R6). -/
abbrev samplesPerFrame : Nat := 588

/-- `BYTES_PER_SAMPLE`: one sample instant across both stereo channels (R6). -/
abbrev bytesPerSample : Nat := 4

/-- `BYTES_PER_FRAME`, `SAMPLES_PER_FRAME * 4`: bytes in one sector, and the capacity of the FIFO (R6, R61). -/
abbrev bytesPerFrame : Nat := 2352

/-- `HEAD_SKIP`: sectors of the first track's skipped head, the fifth being the special one (R6). -/
abbrev headSkip : Nat := 5

/-- `TAIL_SKIP`: sectors of the last track's skipped tail (R6). -/
abbrev tailSkip : Nat := 5

/-- `HEAD_WEIGHT`, `SAMPLES_PER_FRAME * 5`: the weight of the last sample of the fifth sector (R6, R164). -/
abbrev headWeight : Nat := 2940

/-- The largest `frameLength` a `DURATION` may resolve to, 2^63 - 1 (43_session.md R197). -/
abbrev maxLength : Nat := 2 ^ 63 - 1

/-- The generator polynomial in its bit-reversed form (R140, from general knowledge G1). -/
abbrev crcPolynomial : Word32 := 0xEDB88320#32

/-- The complement mask: preset of the shift register and final XOR (R140, R141). -/
abbrev crcComplement : Word32 := 0xFFFFFFFF#32

end Sys2Proof.Config
end

