-- ==== Sys2Proof/Machine/State.lean ====
section
/-! DEFINITION. The state of one core, 10_state.md R20 to R40, with the two things that stand outside
it and that a step of the model reads and writes: the words waiting on the command port and the
answers (response and events) the commands have given. All of it is plain data. -/

namespace Sys2Proof.Machine

/-- The lifecycle states that register `ST` holds; the codes 5 to 7 never occur (10_state.md R27,
93_implementation_defined.md U13), so the type has none for them. -/
inductive Lifecycle where
  | created
  | started
  | running
  | stopped
  | failed
deriving DecidableEq, Repr

/-- The five task errors (60_exceptions.md R241). Register `ERR` is an optional one: its code 0 is
"none", and the codes 6 and 7 never occur (10_state.md R28). -/
inductive TaskError where
  | notFound
  | noData
  | truncatedRange
  | alignment
  | cancelled
deriving DecidableEq, Repr

/-- The reasons of a rejection (30_encoding.md R101). -/
inductive Reason where
  /-- `RSN_OPCODE`: the opcode is not in the opcode map. -/
  | opcode
  /-- `RSN_STATE`: the command is not legal in this state. -/
  | state
  /-- `RSN_OPERAND`: a reserved operand bit is set, or the operand value is not legal. -/
  | operand
deriving DecidableEq, Repr

/-- A response (30_encoding.md R91): `OK` with 64 bits of data, or `REJECTED` with a reason. The status
codes 2 and 3 are never produced, so the type has none for them. -/
inductive Response where
  | ok (data : Word64)
  | rejected (reason : Reason)
deriving DecidableEq, Repr

/-- The events (30_encoding.md R103), each with the payloads the table gives it. -/
inductive Event where
  | queryLen
  | seek (frameStart frameEnd : Word64)
  | progress (num den : Word64)
  | done (result : Word32)
  | error (error : TaskError) (info : Word64)
  | stop
deriving DecidableEq, Repr

/-- What one command gives back: its response together with its events in emission order
(20_memory.md R77: "a model returns them as one result of the step"). -/
structure Answer where
  response : Response
  events : List Event
deriving DecidableEq, Repr

/-- Why the machine stops with a fault. -/
inductive Fault where
  /-- Raised by `BYTE` when the FIFO already holds 2352 bytes or more, which `FifoPush` excludes by its
  requirement (20_memory.md R63) and which no run from reset reaches (10_state.md R41 (a)). Safe:
  the spec gives the push no effect there. -/
  | fifoOverflow
deriving DecidableEq, Repr

/-- Why a step has no meaning. -/
inductive Refusal where
  /-- An instruction of the table whose meaning is not written; raised by no arm of this model. Safe. -/
  | notModelled (mnemonic : String)
deriving DecidableEq, Repr

structure State where
  /-- `ALG`: the selected algorithm (R21). -/
  alg : Algorithm
  /-- `trackNumber` (R22). -/
  trackNumber : Byte
  /-- `trackCount` (R23). -/
  trackCount : Byte
  /-- `frameStart`: first sample offset of the range (R24). -/
  frameStart : Word64
  /-- `frameLength`: samples in the range, two's complement, negative for unknown (R25). -/
  frameLength : Word64
  /-- `frameEnd`: last sample offset of the range, inclusive (R26). -/
  frameEnd : Word64
  /-- `ST`: the lifecycle state (R27). -/
  st : Lifecycle
  /-- `ERR`: the error the task ended with, or none (R28). -/
  err : Option TaskError
  /-- `MISSING`: missing samples of a truncated range, two's complement (R29). -/
  missing : Word64
  /-- `ACC`: the running checksum (R30). -/
  acc : Word32
  /-- `bytesConsumed`: bytes handed to the algorithm (R31). -/
  bytesConsumed : Word64
  /-- `discFrameCounter`: sectors passed to the AccurateRip update (R32). -/
  discFrameCounter : Word64
  /-- `firstValid`: a chunk was received (R33). -/
  firstValid : Bool
  /-- `firstSampleOffset`: the offset of the first chunk (R33). -/
  firstSampleOffset : Word64
  /-- `nextSampleOffset`: the offset the next completed sample will have (R34). -/
  nextSampleOffset : Word64
  /-- `FIFO`: the bytes held, oldest first; `level` is their number (R35, R62). -/
  fifo : List Byte
  /-- The model's own: the command words the agents have presented and the core has not yet accepted,
  next one first (R9, R75). -/
  cmdPort : List CmdWord
  /-- The model's own: the answers given since reset, oldest first (R91, R92, R77). -/
  answers : List Answer
deriving DecidableEq, Repr

/-- The state after reset: the table of 10_state.md R40. The FIFO starts empty, nothing waits on the
command port and nothing has been answered (70_reset_and_hazards.md R280 to R282). -/
def State.reset : State where
  alg := .crc32
  trackNumber := 1#8
  trackCount := 1#8
  frameStart := 0#64
  frameLength := 0xFFFFFFFFFFFFFFFF#64
  frameEnd := 0#64
  st := .created
  err := none
  missing := 0#64
  acc := 0#32
  bytesConsumed := 0#64
  discFrameCounter := 0#64
  firstValid := false
  firstSampleOffset := 0#64
  nextSampleOffset := 0#64
  fifo := []
  cmdPort := []
  answers := []

end Sys2Proof.Machine
end

