-- ==== Sys2Proof/Machine/Operands.lean ====
section
/-! DEFINITION. How values are formed from operands, registers and bytes: byte order and sample values
(20_memory.md R65, R66), the signed reading of a 64-bit register (00_scope.md R12), and the codes of the
register contents (30_encoding.md R98 to R102). -/

namespace Sys2Proof.Machine

/-- `le32`: four bytes, the first one least significant (00_scope.md R13, 20_memory.md R65). -/
def le32 (b0 b1 b2 b3 : Byte) : Word32 := b3 ++ b2 ++ b1 ++ b0

/-- The sample values `v_0`, `v_1`, … of a run of bytes, four bytes each (R65, 42_accuraterip.md R162). -/
def samplesOf : List Byte → List Word32
  | b0 :: b1 :: b2 :: b3 :: rest => le32 b0 b1 b2 b3 :: samplesOf rest
  | _ => []

/-- Byte `i` of a sector, `s[i]` (20_memory.md R64); asked only for `i` below the sector's length. -/
def sectorByte (sector : List Byte) (i : Nat) : Byte := sector.getD i 0#8

/-- The last sample value of a sector, `v_587` (42_accuraterip.md R164). -/
def lastSample (sector : List Byte) : Word32 :=
  le32 (sectorByte sector 2348) (sectorByte sector 2349) (sectorByte sector 2350)
    (sectorByte sector 2351)

/-- The first 16-bit value of a sample pair, bits 15 to 0 (20_memory.md R66). -/
def firstHalf (v : Word32) : Word16 := v.extractLsb' 0 16

/-- The second 16-bit value of a sample pair, bits 31 to 16 (20_memory.md R66). -/
def secondHalf (v : Word32) : Word16 := v.extractLsb' 16 16

/-- `signed_64`: the two's-complement reading (00_scope.md R12). -/
def signed64 (v : Word64) : Int := if v.toNat < 2 ^ 63 then v.toNat else (v.toNat : Int) - 2 ^ 64

/-- `discFrameLength`: the range in sectors, rounded down (42_accuraterip.md R165). -/
def discFrameLength (s : State) : Int := signed64 s.frameLength / Config.samplesPerFrame

/-- The samples consumed so far, `bytesConsumed / 4` (43_session.md R202, 42_accuraterip.md R167). -/
def samplesConsumed (s : State) : Nat := s.bytesConsumed.toNat / Config.bytesPerSample

/-- The last observed sample offset, `(nextSampleOffset - 1) mod 2^64` (10_state.md R34). -/
def lastOffset (s : State) : Word64 := s.nextSampleOffset - 1#64

/-- The `ST` codes (30_encoding.md R99). -/
def Lifecycle.code : Lifecycle → BitVec 3
  | .created => 0#3
  | .started => 1#3
  | .running => 2#3
  | .stopped => 3#3
  | .failed  => 4#3

/-- The error codes (30_encoding.md R100). -/
def TaskError.code : TaskError → BitVec 3
  | .notFound       => 1#3
  | .noData         => 2#3
  | .truncatedRange => 3#3
  | .alignment      => 4#3
  | .cancelled      => 5#3

/-- The content of `ERR` as bits: 0 for no error (30_encoding.md R100). -/
def errCode : Option TaskError → BitVec 3
  | none   => 0#3
  | some e => e.code

/-- The rejection reason codes (30_encoding.md R101). -/
def Reason.code : Reason → Byte
  | .opcode  => 1#8
  | .state   => 2#8
  | .operand => 3#8

/-- Which task errors are fatal (60_exceptions.md R241, R242): all but `TruncatedRangeError`. -/
def TaskError.fatal : TaskError → Bool
  | .notFound       => true
  | .noData         => true
  | .truncatedRange => false
  | .alignment      => true
  | .cancelled      => true

end Sys2Proof.Machine
end

