-- ==== Sys2Proof/Machine/Flags.lean ====
section
/-! DEFINITION. The single-bit conditions of the core, 10_state.md R37. It has no condition-code register:
`firstValid` is a register of its own (a field of `State`), and every other condition is computed from
registers, here. -/

namespace Sys2Proof.Machine

/-- `level`: how many bytes the FIFO holds (10_state.md R35). -/
def State.level (s : State) : Nat := s.fifo.length

/-- The sample phase, `level mod 4` (R37, 40_frame_assembler.md R126). -/
def samplePhase (s : State) : Nat := s.level % Config.bytesPerSample

/-- A sample has just been completed: the phase is 0 (R37, 40_frame_assembler.md R126). -/
def sampleComplete (s : State) : Bool := samplePhase s == 0

/-- A sector is complete: `level = 2352` (R37). -/
def sectorComplete (s : State) : Bool := s.level == Config.bytesPerFrame

/-- The length is unknown: `frameLength` reads negative, whatever the value (R37, 10_state.md R25). -/
def lengthUnknown (s : State) : Bool := decide (signed64 s.frameLength < 0)

/-- First track: `trackNumber = 1` (R37). -/
def firstTrack (s : State) : Bool := s.trackNumber == 1#8

/-- Last track: `trackNumber = trackCount` (R37). -/
def lastTrack (s : State) : Bool := s.trackNumber == s.trackCount

/-- The sector whose 1-based number is `n` lies in the excluded tail: `n + 5 > discFrameLength`, over
the integers (42_accuraterip.md R165). -/
def inTail (n : Nat) (s : State) : Bool := decide (discFrameLength s < (n : Int) + Config.tailSkip)

/-- The last observed sample offset differs from `frameEnd` (60_exceptions.md R246). -/
def rangeTruncated (s : State) : Bool := lastOffset s != s.frameEnd

/-- The form the FIFO keeps between commands: `level <= 2351` (10_state.md R35, R41 (a)). A list has one
form only, so equal FIFOs are equal data. -/
def State.fifoWf (s : State) : Bool := decide (s.level < Config.bytesPerFrame)

end Sys2Proof.Machine
end

