-- ==== Sys2Proof/Machine/Ops.lean ====
section
/-! DEFINITION. The shared operations: the command port, the response, the legality check and rejection of
30_encoding.md R101, raising a task error (60_exceptions.md R243), the FIFO primitives (20_memory.md R63,
R64) and the resolve step (43_session.md R198). The core has no return from an error (60_exceptions.md
R255), so none stands beside `State.raise`. -/

namespace Sys2Proof.Machine

/-- A command's result: the next state, or why there is none. -/
abbrev Result := Host.Outcome State Fault Refusal

/-! ## The command port (00_scope.md R9, 20_memory.md R75) -/

/-- The state with these words waiting on the command port. -/
def State.withPort (words : List CmdWord) (s : State) : State := { s with cmdPort := words }

/-- Words the agents present behind those already waiting: commands are serialized in front of the
port and taken in that order (R10, R75, R76). -/
def State.present (words : List CmdWord) (s : State) : State := s.withPort (s.cmdPort ++ words)

/-- Accept the next command word: the word, and the state without it on the port (R75, R287). -/
def acceptWord (s : State) : Option (CmdWord × State) :=
  match s.cmdPort with
  | [] => none
  | w :: rest => some (w, s.withPort rest)

/-- The reset input, asserted in any state: every register at its reset value. Answers already given have
been delivered, and words not yet accepted still wait with the agents (70_reset_and_hazards.md R280, R281).
It is an input of the core and no command: no step performs it. -/
def State.assertReset (s : State) : State :=
  { State.reset with cmdPort := s.cmdPort, answers := s.answers }

/-! ## Responses, rejection and legality (30_encoding.md R91, R93, R101) -/

/-- End a command with its response and its events (00_scope.md R13, 20_memory.md R77). -/
def State.respond (response : Response) (events : List Event) (s : State) : State :=
  { s with answers := s.answers ++ [{ response := response, events := events }] }

/-- `respond OK(0)`, the answer of every executed command but `RD` (R91). -/
def accept (events : List Event) (s : State) : Result := .next (s.respond (.ok 0#64) events)

/-- `respond REJECTED(reason)`: no register changes and no event is emitted (R101, 60_exceptions.md R249). -/
def reject (reason : Reason) (s : State) : Result := .next (s.respond (.rejected reason) [])

/-- In which lifecycle states a command is legal (30_encoding.md R93, column "legal in `ST`"). -/
def legalIn (op : Opcode) (st : Lifecycle) : Bool :=
  match op with
  | .setalg   => st == .created
  | .settrk   => st == .created
  | .setstart => st == .created
  | .setlen   => st == .created
  | .notfound => st == .created
  | .start    => st == .created
  | .duration => st == .started
  | .cancel   => st == .created || st == .started || st == .running
  | .chunk    => st == .running
  | .byte     => st == .running
  | .eos      => st == .running
  | .rd       => true

/-- Check (2) of R101: outside the command's states it is `REJECTED(RSN_STATE)`. -/
def whenLegal (op : Opcode) (s : State) (run : Result) : Result :=
  if legalIn op s.st then run else reject .state s

/-- The answer to a word whose opcode is reserved: `RSN_OPCODE` in every state (R96, check (1) of R101). -/
def rejectOpcode (s : State) : Result := reject .opcode s

/-- The answer to a known opcode with a reserved operand bit set: the state is checked first, then the
operand (R95, checks (2) and (3) of R101). -/
def rejectReservedBits (op : Opcode) (s : State) : Result := whenLegal op s (reject .operand s)

/-! ## Task errors (60_exceptions.md R241 to R243, R254) -/

/-- What raising an error writes: `ERR`; `MISSING` for code 3; and `ST` when it is fatal. Nothing else is
saved and nothing else is changed (R243, R254). -/
def State.raise (e : TaskError) (missing : Word64) (s : State) : State :=
  { s with
    err := some e
    missing := if e = .truncatedRange then missing else s.missing
    st := if e.fatal then .failed else s.st }

/-- The `ERROR` event of an error: its code, and `MISSING` for code 3, else 0 (R243, 30_encoding.md R103). -/
def errorEvent (e : TaskError) (missing : Word64) : Event :=
  .error e (if e = .truncatedRange then missing else 0#64)

/-- A fatal error ends the command that detects it, after the events it has already emitted; the
response is still `OK` (R240, R242). -/
def raiseFatal (e : TaskError) (before : List Event) (s : State) : Result :=
  accept (before ++ [errorEvent e 0#64]) (s.raise e 0#64)

/-! ## The FIFO (20_memory.md R61 to R64) -/

/-- A byte behind those held, `level <- level + 1` (R63). -/
def State.appendByte (b : Byte) (s : State) : State := { s with fifo := s.fifo ++ [b] }

/-- `FifoPush(b)`: requires `level <= 2351`; none where the requirement does not hold (R63). -/
def fifoPush (b : Byte) (s : State) : Option State :=
  if s.level < Config.bytesPerFrame then some (s.appendByte b) else none

/-- The FIFO emptied, `level <- 0` (R64). -/
def State.clearFifo (s : State) : State := { s with fifo := [] }

/-- `FifoPopSector()`: the bytes held, oldest first, and the state with `level = 0`; called only when
`level = 2352` (R64). -/
def fifoPopSector (s : State) : List Byte × State := (s.fifo, s.clearFifo)

/-! ## The resolve step (43_session.md R198) -/

/-- `Resolve()`: `frameEnd` and the move to `Running`; the sum is reduced modulo 2^64. -/
def State.resolve (s : State) : State :=
  { s with
    frameEnd := BitVec.ofInt 64 (s.frameStart.toNat + signed64 s.frameLength - 1)
    st := .running }

/-- The `SEEK` event of the resolve step, with the inclusive end (R198, R206). -/
def seekEvent (s : State) : Event := .seek s.frameStart s.resolve.frameEnd

/-! ## Reading an outcome -/

/-- The next state of an outcome, if it has one. -/
def nextOf : Result → Option State
  | .next s => some s
  | .fault _ => none
  | .refused _ => none

/-- The last answer given. -/
def State.lastAnswer (s : State) : Option Answer := s.answers.getLast?

/-- Every event emitted since reset, in order (20_memory.md R77). -/
def State.events (s : State) : List Event := s.answers.flatMap Answer.events

end Sys2Proof.Machine
end

