-- ==== Sys2Proof/Machine/Readout.lean ====
section
/-! DEFINITION. The readout command `RD`, 44_readout.md R230 to R232, over the register numbers of
30_encoding.md R102. -/

namespace Sys2Proof.Machine

/-- `value(reg)`, zero-extended to 64 bits (R231); none for the reserved numbers 15 to 255 (R102). -/
def regValue (reg : Byte) (s : State) : Option Word64 :=
  match reg.toNat with
  | 0  => some (s.st.code.setWidth 64)
  | 1  => some ((errCode s.err).setWidth 64)
  | 2  => some (s.acc.setWidth 64)
  | 3  => some s.missing
  | 4  => some (s.alg.code.setWidth 64)
  | 5  => some ((s.trackCount ++ s.trackNumber).setWidth 64)
  | 6  => some s.frameStart
  | 7  => some s.frameLength
  | 8  => some s.frameEnd
  | 9  => some s.bytesConsumed
  | 10 => some s.discFrameCounter
  | 11 => some s.firstSampleOffset
  | 12 => some s.nextSampleOffset
  | 13 => some (BitVec.ofNat 64 s.level)
  | 14 => some ((BitVec.ofBool s.firstValid).setWidth 64)
  | _  => none

/-- The response of `RD reg`: a reserved number is refused for its operand; `RESULT` is answered in
`Stopped` only (R230, R232). -/
def rdResponse (reg : Byte) (s : State) : Response :=
  match regValue reg s with
  | none => .rejected .operand
  | some v => if reg.toNat = 2 ∧ s.st ≠ .stopped then .rejected .state else .ok v

/-- `RD reg` (R230): legal in every state; it writes no register and emits no event. -/
def execRd (reg : Byte) (s : State) : Result :=
  whenLegal .rd s <| .next (s.respond (rdResponse reg s) [])

end Sys2Proof.Machine
end

