-- ==== Sys2Proof/Machine/Session.lean ====
section
/-! DEFINITION. The session commands: configuration, start, length resolution, cancel, end of stream:
43_session.md R190 to R206. -/

namespace Sys2Proof.Machine

/-- `SETALG alg` (R191). -/
def execSetalg (alg : Algorithm) (s : State) : Result :=
  whenLegal .setalg s <| accept [] { s with alg := alg }

/-- `SETTRK trackNumber, trackCount` (R192): any pair of values. -/
def execSettrk (trackNumber trackCount : Byte) (s : State) : Result :=
  whenLegal .settrk s <| accept [] { s with trackNumber := trackNumber, trackCount := trackCount }

/-- `SETSTART frameStart` (R193). -/
def execSetstart (frameStart : Word64) (s : State) : Result :=
  whenLegal .setstart s <| accept [] { s with frameStart := frameStart }

/-- `SETLEN frameLength` (R194). -/
def execSetlen (frameLength : Word64) (s : State) : Result :=
  whenLegal .setlen s <| accept [] { s with frameLength := frameLength }

/-- `NOTFOUND` (R196): raises `NotFoundError`. -/
def execNotfound (s : State) : Result :=
  whenLegal .notfound s <| raiseFatal .notFound [] s

/-- `START` (R195): ask for the length, or resolve it at once. -/
def execStart (s : State) : Result :=
  whenLegal .start s <|
    if lengthUnknown s then accept [.queryLen] { s with st := .started }
    else accept [seekEvent s] s.resolve

/-- The length a total duration gives, where it gives one: `total - frameStart` between 0 and
2^63 - 1 (R197). -/
def durationLength (total : Word64) (s : State) : Option Word64 :=
  if total.toNat < s.frameStart.toNat ∨ Config.maxLength < total.toNat - s.frameStart.toNat then none
  else some (total - s.frameStart)

/-- `DURATION total` (R197). -/
def execDuration (total : Word64) (s : State) : Result :=
  whenLegal .duration s <|
    match durationLength total s with
    | none => reject .operand s
    | some n => accept [seekEvent { s with frameLength := n }] (State.resolve { s with frameLength := n })

/-- The `STOP` event of a cancel: only when a request to the collaborator is outstanding (R199). -/
def stopEvents (s : State) : List Event :=
  if s.st = .started ∨ s.st = .running then [.stop] else []

/-- `CANCEL` (R199): raises `Cancelled`. -/
def execCancel (s : State) : Result :=
  whenLegal .cancel s <| raiseFatal .cancelled (stopEvents s) s

/-- The number of missing samples, `frameEnd - last` modulo 2^64 (R201). -/
def missingSamples (s : State) : Word64 := s.frameEnd - lastOffset s

/-- The end of a stream that passed both fatal tests: the truncation flag, then the result (R200). -/
def finalize (s : State) : Result :=
  if rangeTruncated s then
    accept [errorEvent .truncatedRange (missingSamples s), .done s.acc]
      { s.raise .truncatedRange (missingSamples s) with st := .stopped }
  else accept [.done s.acc] { s with st := .stopped }

/-- `EOS` (R200): the three tests in the order of 60_exceptions.md R252. -/
def execEos (s : State) : Result :=
  whenLegal .eos s <|
    if !s.firstValid then raiseFatal .noData [] s
    else if !sampleComplete s then raiseFatal .alignment [] s
    else finalize s

end Sys2Proof.Machine
end

