-- ==== Sys2Proof/Machine/AccurateRip.lean ====
section
/-! DEFINITION. The AccurateRip version 1 accumulator, 42_accuraterip.md R160 to R173. -/

namespace Sys2Proof.Machine

/-- The sum of weight times value modulo 2^32, the weights rising by one from `w` (R167). -/
def weightedSum (w : Nat) (sum : Word32) : List Word32 → Word32
  | [] => sum
  | v :: vs => weightedSum (w + 1) (sum + BitVec.ofNat 32 (w * v.toNat)) vs

/-- Step 1: the counter is incremented first, for every sector (R161). -/
def State.countSector (s : State) : State := { s with discFrameCounter := s.discFrameCounter + 1#64 }

/-- Add to the accumulator, modulo 2^32 (R164, R167, R169). -/
def State.addAcc (x : Word32) (s : State) : State := { s with acc := s.acc + x }

/-- The contribution of the fifth sector of the first track: 2940 times its last sample (R164). -/
def headContribution (sector : List Byte) : Word32 :=
  BitVec.ofNat 32 (Config.headWeight * (lastSample sector).toNat)

/-- The contribution of a sector in the normal case; `bytesConsumed` is the count before it (R167). -/
def sectorSum (sector : List Byte) (s : State) : Word32 :=
  weightedSum (samplesConsumed s + 1) 0#32 (samplesOf sector)

/-- Steps 2 to 4 for a sector already counted, `n` being its 1-based number (R163 to R168). -/
def arAccumulate (n : Nat) (sector : List Byte) (s : State) : State :=
  if firstTrack s && decide (n < Config.headSkip) then s
  else if firstTrack s && n == Config.headSkip then s.addAcc (headContribution sector)
  else if lastTrack s && inTail n s then s
  else s.addAcc (sectorSum sector s)

/-- `ArSector(s)`, the whole update in the source's order (R168). -/
def arSector (sector : List Byte) (s : State) : State :=
  arAccumulate s.countSector.discFrameCounter.toNat sector s.countSector

end Sys2Proof.Machine
end

