-- ==== Sys2Proof/Machine/Crc32.lean ====
section
/-! DEFINITION. The byte-serial CRC32 generator, 41_crc32.md R140 to R146. The parameter values come from the
spec's own general-knowledge passages G1 to G3 (93_implementation_defined.md). -/

namespace Sys2Proof.Machine

/-- One shift of the register: bit 0 out, the polynomial in when it was 1 (R141). -/
def crcShift (c : Word32) : Word32 :=
  if c.getLsbD 0 then (c >>> 1) ^^^ Config.crcPolynomial else c >>> 1

/-- `n` shifts. -/
def crcShifts : Nat → Word32 → Word32
  | 0, c => c
  | n + 1, c => crcShifts n (crcShift c)

/-- `crc32_byte(a, b)`: from presented form to the raw register, the byte into its low 8 bits, eight
shifts, and back to presented form (R141). -/
def crc32Byte (a : Word32) (b : Byte) : Word32 :=
  crcShifts 8 ((a ^^^ Config.crcComplement) ^^^ b.setWidth 32) ^^^ Config.crcComplement

/-- The fold of the byte step over a run of bytes, first byte first (R143, R144). -/
def crc32Bytes (a : Word32) (bytes : List Byte) : Word32 := bytes.foldl crc32Byte a

/-- `Crc32Sector(a, s)`: every byte of the sector in stream order (R143). -/
def crc32Sector (a : Word32) (sector : List Byte) : Word32 := crc32Bytes a sector

/-- The table entry `T[n]`, defined by the loop (R142). -/
def crcTable (n : Byte) : Word32 := crcShifts 8 (n.setWidth 32)

/-- The table form of the byte step (R142). -/
def crc32ByteTable (a : Word32) (b : Byte) : Word32 :=
  let c := a ^^^ Config.crcComplement
  (crcTable ((c ^^^ b.setWidth 32).setWidth 8) ^^^ (c >>> 8)) ^^^ Config.crcComplement

/-- The step of a raw shift register, which an implementation keeps in place of `ACC` (R146). -/
def crcRawStep (raw : Word32) (b : Byte) : Word32 :=
  crcTable ((raw ^^^ b.setWidth 32).setWidth 8) ^^^ (raw >>> 8)

/-- The CRC32 branch of `UpdateSector`: it writes `ACC` only (40_frame_assembler.md R127, R143). -/
def crcSectorUpdate (sector : List Byte) (s : State) : State :=
  { s with acc := crc32Sector s.acc sector }

end Sys2Proof.Machine
end

