-- ==== Sys2Proof/Machine/Stream.lean ====
section
/-! DEFINITION. The stream commands `CHUNK` and `BYTE`, the sector drain and the progress report:
40_frame_assembler.md R120 to R127, 43_session.md R202. -/

namespace Sys2Proof.Machine

/-- `UpdateSector(s)`: dispatch on `ALG` (R127). -/
def updateSector (sector : List Byte) (s : State) : State :=
  match s.alg with
  | .crc32 => crcSectorUpdate sector s
  | .accurateRip => arSector sector s

/-- The `PROGRESS` event: the exact ratio of samples consumed, clamped, to `frameLength`
(43_session.md R202). -/
def progressEvent (s : State) : Event :=
  .progress (BitVec.ofInt 64 (min (samplesConsumed s : Int) (signed64 s.frameLength)))
    (BitVec.ofInt 64 (signed64 s.frameLength))

/-- `bytesConsumed` advances by one sector, whatever the algorithm did with it (R123). -/
def State.consumeSector (s : State) : State :=
  { s with bytesConsumed := s.bytesConsumed + 2352#64 }

/-- `DrainSector()`: pop, update, count the bytes; its event is the `progressEvent` of the state it
leaves (R123). -/
def drainSector (s : State) : State :=
  (updateSector (fifoPopSector s).1 (fifoPopSector s).2).consumeSector

/-- The sample-boundary detector: a completed sample advances `nextSampleOffset` (R122, R126). -/
def State.countSample (s : State) : State :=
  if sampleComplete s then { s with nextSampleOffset := s.nextSampleOffset + 1#64 } else s

/-- The first chunk's offset is latched, later ones leave it (R121). -/
def State.latchFirst (offset : Word64) (s : State) : State :=
  if s.firstValid then s else { s with firstSampleOffset := offset, firstValid := true }

/-- `CHUNK offset` (R121). -/
def execChunk (offset : Word64) (s : State) : Result :=
  whenLegal .chunk s <| accept [] { s.latchFirst offset with nextSampleOffset := offset }

/-- What `BYTE` does once its byte is in the FIFO: count a completed sample, drain a completed sector. -/
def afterPush (s : State) : Result :=
  if sectorComplete s.countSample then
    accept [progressEvent (drainSector s.countSample)] (drainSector s.countSample)
  else accept [] s.countSample

/-- `BYTE data` (R122): legal in `Running` after a `CHUNK`. -/
def execByte (data : Byte) (s : State) : Result :=
  whenLegal .byte s <|
    if s.firstValid then
      match fifoPush data s with
      | some pushed => afterPush pushed
      | none => .fault .fifoOverflow
    else reject .state s

end Sys2Proof.Machine
end

