-- ==== Sys2Proof/Machine/Dispatch.lean ====
section
/-! DEFINITION. One arm per command, in the order of spec/opcode_table.json. -/

namespace Sys2Proof.Machine

/-- The meaning of a command at a state from whose port its word has been taken. -/
def exec (i : Instr) (s : State) : Host.Outcome State Fault Refusal :=
  match i with
  | .setalg alg => Sys2Proof.Machine.execSetalg alg s
  | .settrk number count => Sys2Proof.Machine.execSettrk number count s
  | .setstart frameStart => Sys2Proof.Machine.execSetstart frameStart s
  | .setlen frameLength => Sys2Proof.Machine.execSetlen frameLength s
  | .notfound => Sys2Proof.Machine.execNotfound s
  | .start => Sys2Proof.Machine.execStart s
  | .duration total => Sys2Proof.Machine.execDuration total s
  | .cancel => Sys2Proof.Machine.execCancel s
  | .chunk offset => Sys2Proof.Machine.execChunk offset s
  | .byte data => Sys2Proof.Machine.execByte data s
  | .eos => Sys2Proof.Machine.execEos s
  | .rd reg => Sys2Proof.Machine.execRd reg s

end Sys2Proof.Machine
end

