-- ==== Sys2Proof/Machine/Step.lean ====
section
/-! DEFINITION. One step: the core accepts the next word on its command port and executes it, whole and at
once (00_scope.md R9, 20_memory.md R75). The core has no program counter and fetches no instructions
(10_state.md R36): the port stands where another machine has its fetch. -/

namespace Sys2Proof.Machine

/-- With no word on the port the core is idle and nothing changes (60_exceptions.md R261,
70_reset_and_hazards.md R282); a word outside the table is answered `REJECTED` (30_encoding.md R95,
R96, R101). -/
def step (s : State) : Host.Outcome State Fault Refusal :=
  match acceptWord s with
  | none => .next s
  | some (w, rest) =>
    match decode w with
    | .instr i => exec i rest
    | .reservedOpcode _ => rejectOpcode rest
    | .reservedBits op _ => rejectReservedBits op rest

/-- The state with the word whose bits are `w` presented in front of every other word, where the next
step takes it. -/
def State.withFetchWord (s : State) (nbits w : Nat) : State :=
  s.withPort (tableWord nbits w :: s.cmdPort)

end Sys2Proof.Machine
end

