-- ==== Sys2Proof/Machine/Ports.lean ====
section
/-! DEFINITION. The response and event words, 30_encoding.md R91, R92, R103, and who consumes an event. -/

namespace Sys2Proof.Machine

/-- Format `RSP`: the status over the data; a rejection's reason code stands in bits 7 to 0 (R91). -/
def Response.encode : Response → RspWord
  | .ok data         => (0#2 ++ data : BitVec 66)
  | .rejected reason => (1#2 ++ (reason.code.setWidth 64 : Word64) : BitVec 66)

/-- The event codes (R103). -/
def Event.code : Event → Byte
  | .queryLen     => 0x01#8
  | .seek _ _     => 0x02#8
  | .progress _ _ => 0x03#8
  | .done _       => 0x04#8
  | .error _ _    => 0x05#8
  | .stop         => 0x06#8

/-- The first payload (R103). -/
def Event.p0 : Event → Word64
  | .queryLen            => 0#64
  | .seek frameStart _   => frameStart
  | .progress num _      => num
  | .done result         => result.setWidth 64
  | .error e _           => e.code.setWidth 64
  | .stop                => 0#64

/-- The second payload (R103). -/
def Event.p1 : Event → Word64
  | .queryLen          => 0#64
  | .seek _ frameEnd   => frameEnd
  | .progress _ den    => den
  | .done _            => 0#64
  | .error _ info      => info
  | .stop              => 0#64

/-- Format `EVT`: the code over the two payloads (R92). -/
def Event.encode (e : Event) : EvtWord := (e.code ++ e.p0 ++ e.p1 : BitVec 136)

/-- The agent an event is for (R103, 00_scope.md R10, 60_exceptions.md R250). -/
def Event.consumer : Event → Agent
  | .queryLen     => .collaborator
  | .seek _ _     => .collaborator
  | .progress _ _ => .caller
  | .done _       => .caller
  | .error _ _    => .caller
  | .stop         => .collaborator

/-- The words on the response port since reset, one per accepted command, in order (R91, R107). -/
def responseWords (s : State) : List RspWord := s.answers.map fun a => a.response.encode

/-- The words on the event port since reset, in order (R92, 20_memory.md R77). -/
def eventWords (s : State) : List EvtWord := s.events.map Event.encode

/-- The events routed to one agent, in order: routing is by event code (60_exceptions.md R251). -/
def eventsFor (agent : Agent) (s : State) : List Event := s.events.filter (fun e => e.consumer == agent)

end Sys2Proof.Machine
end

