-- ==== Sys2Proof/Machine/Run.lean ====
section
/-! DEFINITION. Sequences of commands, executed one after the other (20_memory.md R75). -/

namespace Sys2Proof.Machine

/-- Execute commands in order; stop at the first that gives no next state. -/
def runAll : List Instr → State → Result
  | [], s => .next s
  | i :: is, s =>
    match exec i s with
    | .next t => runAll is t
    | .fault f => .fault f
    | .refused r => .refused r

/-- The commands of one chunk packet: `CHUNK` and its bytes (30_encoding.md R104, R106 `DATA`). -/
def chunkPacket (offset : Word64) (bytes : List Byte) : List Instr := .chunk offset :: bytes.map .byte

/-- The data bytes of a command sequence, in order: what reaches the FIFO (20_memory.md R64). -/
def dataOf : List Instr → List Byte
  | [] => []
  | .byte b :: is => b :: dataOf is
  | _ :: is => dataOf is

/-- A command that the collaborator's stream is made of. -/
def isStream : Instr → Bool
  | .chunk _ => true
  | .byte _ => true
  | _ => false

end Sys2Proof.Machine
end

