-- ==== Sys2Proof/Machine/TaskView.lean ====
section
/-! DEFINITION. The document's own interface, built from commands, events and registers: the map of
30_encoding.md R97 and the read side of 44_readout.md R234. -/

namespace Sys2Proof.Machine

/-- The operations of the source document that drive the core (R97). -/
inductive DocOp where
  /-- `createTask` without its path, which goes to the collaborator. -/
  | createTask (trackNumber trackCount : Byte) (frameStart frameLength : Word64) (algorithm : Algorithm)
  /-- `open(path)` failing with `NotFoundError`. -/
  | openFailed
  | start
  /-- The answer to `queryTotalLength`. -/
  | totalLength (total : Word64)
  /-- `onChunk(bytes)`; the offset is the spec's own operand (92_eei_decisions.md D11). -/
  | onChunk (offset : Word64) (bytes : List Byte)
  | onEndOfStream
  | cancel
deriving DecidableEq, Repr

/-- The commands of an operation (R97). -/
def DocOp.commands : DocOp → List Instr
  | .createTask trackNumber trackCount frameStart frameLength algorithm =>
    [.setalg algorithm, .settrk trackNumber trackCount, .setstart frameStart, .setlen frameLength]
  | .openFailed => [.notfound]
  | .start => [.start]
  | .totalLength total => [.duration total]
  | .onChunk offset bytes => chunkPacket offset bytes
  | .onEndOfStream => [.eos]
  | .cancel => [.cancel]

/-- What a register reads, where `RD` answers it (44_readout.md R230). -/
def readReg (reg : Byte) (s : State) : Option Word64 :=
  match rdResponse reg s with
  | .ok v => some v
  | .rejected _ => none

/-- `Task.result`: `RD RESULT`, 32 bits, available in `Stopped` only (R232, R234). -/
def taskResult (s : State) : Option Word32 := (readReg 2#8 s).map (fun v => v.setWidth 32)

/-- `Task.error`, with the number of missing samples that a truncated range carries (R234). -/
def taskError (s : State) : Option (TaskError × Word64) := s.err.map (fun e => (e, s.missing))

/-- `Task.progress`: the progress events, in order (R234). -/
def taskProgress (s : State) : List (Word64 × Word64) :=
  s.events.filterMap fun e =>
    match e with
    | .progress num den => some (num, den)
    | _ => none

/-- The first observed sample offset: `RD FLAGS`, then `RD FIRSTOFFSET` (R234). -/
def firstObserved (s : State) : Option Word64 := if s.firstValid then readReg 11#8 s else none

/-- The last observed sample offset: `RD NEXTOFFSET` minus 1 (R234). -/
def lastObserved (s : State) : Option Word64 := (readReg 12#8 s).map (fun v => v - 1#64)

end Sys2Proof.Machine
end

