-- ==== Sys2Proof/Safety.lean ====
section
/-! DEFINITION. What claims about runs are stated in: the invariants of 10_state.md R41, an accepted run
(60_exceptions.md R249), and the duties of the other agents (70_reset_and_hazards.md R283, R285). -/

namespace Sys2Proof.Machine

/-- The invariants of 10_state.md R41 in the form every step keeps, the wrap of the 64-bit counters
included. R41 (b) as written, `bytesConsumed mod 2352 = 0`, is `SectorCounted`: it holds until
`bytesConsumed` wraps, and 16 is what survives the wrap, since 2352 = 16 × 147. R41 (d) holds by the types
of `st` and `err`. The clauses that R41 does not name cite their own rule. -/
structure Inv (s : State) : Prop where
  /-- R41 (a). -/
  level_le : s.level ≤ 2351
  /-- R41 (b), wrap included. -/
  consumed_aligned : s.bytesConsumed.toNat % 16 = 0
  /-- R41 (c), AccurateRip mode, modulo 2^64. -/
  accurateRip_counted : s.alg = .accurateRip → s.discFrameCounter * 2352#64 = s.bytesConsumed
  /-- R41 (c), CRC32 mode. -/
  crc32_uncounted : s.alg = .crc32 → s.discFrameCounter = 0#64
  /-- R41 (e): a fatal error is in `Failed`. -/
  fatal_failed : ∀ e, s.err = some e → e.fatal = true → s.st = .failed
  /-- R41 (e): the truncation flag is in `Stopped`. -/
  truncated_stopped : s.err = some .truncatedRange → s.st = .stopped
  /-- R41 (e): `Failed` has a fatal error. -/
  failed_fatal : s.st = .failed → ∃ e, s.err = some e ∧ e.fatal = true
  /-- R41 (f). -/
  fresh : s.st = .created ∨ s.st = .started → s.firstValid = false
  /-- R41 (f), with 60_exceptions.md R252 (no chunk, empty FIFO) and 44_readout.md R231. -/
  no_chunk : s.firstValid = false → s.fifo = [] ∧ s.acc = 0#32 ∧ s.bytesConsumed = 0#64 ∧
    s.discFrameCounter = 0#64 ∧ s.firstSampleOffset = 0#64 ∧ s.nextSampleOffset = 0#64
  /-- R41 (g): the resolved length is not negative. -/
  resolved_length : s.st = .running ∨ s.st = .stopped → 0 ≤ signed64 s.frameLength
  /-- R41 (g): `frameEnd` is the last sample of the range. -/
  resolved_end : s.st = .running ∨ s.st = .stopped →
    s.frameEnd = s.frameStart + s.frameLength - 1#64
  /-- R41 (h), and R29: `MISSING` is zero exactly when the range was not truncated. -/
  missing_iff : s.missing ≠ 0#64 ↔ s.err = some .truncatedRange
  /-- 44_readout.md R231: `frameEnd` reads 0 before the resolve step. -/
  unresolved_end : s.st = .created ∨ s.st = .started → s.frameEnd = 0#64
  /-- 43_session.md R195: `Started` waits for an unknown length. -/
  started_unknown : s.st = .started → signed64 s.frameLength < 0

/-- R41 (b) as the rule writes it. -/
def SectorCounted (s : State) : Prop := s.bytesConsumed.toNat % 2352 = 0

/-- `bytesConsumed` is not about to wrap (10_state.md R31: unreachable in practice). -/
def FarFromWrap (s : State) : Prop := s.bytesConsumed.toNat + 2352 < 2 ^ 64

/-- A session that has just entered `Running`: nothing received, no error (R41 (f), R204). -/
structure FreshRunning (s : State) : Prop where
  running : s.st = .running
  inv : Inv s
  no_chunk : s.firstValid = false

/-- A run in which every command was executed. A sequence of commands that contains a rejection is
outside what the source describes (60_exceptions.md R249), and its result must not be trusted
(70_reset_and_hazards.md R288). -/
def State.accepted (s : State) : Bool :=
  s.answers.all fun a =>
    match a.response with
    | .ok _ => true
    | .rejected _ => false

/-- The stream of a collaborator that keeps its duties (70_reset_and_hazards.md R285): chunk packets whose
offsets follow on from `start` without gap or duplicate. -/
def contractStream (start : Word64) : List (List Byte) → List Instr
  | [] => []
  | c :: cs => chunkPacket start c ++ contractStream (start + BitVec.ofNat 64 (c.length / 4)) cs

/-- Every chunk is a whole number of samples, and not empty (R285; §8 of the source speaks of chunks of at
least one byte). -/
def wholeChunks (chunks : List (List Byte)) : Bool :=
  chunks.all fun c => decide (c ≠ []) && c.length % 4 == 0

end Sys2Proof.Machine
end

