-- ==== Sys2Proof/Certificates/Slice0/Obligations.lean ====
section
/-! DEFINITION. The statements for the provers. Each docstring names the rule it formalises; a statement that
rests on a choice of the model says so and names the log entry. -/

namespace Sys2Proof.Claims
open Sys2Proof.Machine

/-! ## The vocabulary of the statements, written out from the rules and not from the meanings -/

/-- The state with one more answer; nothing else differs (30_encoding.md R91, 20_memory.md R77). -/
abbrev answered (s : State) (response : Response) (events : List Event) : State :=
  { s with answers := s.answers ++ [{ response := response, events := events }] }

/-- `respond OK(0)` with these events. -/
abbrev okWith (s : State) (events : List Event) : State := answered s (.ok 0#64) events

/-- `respond REJECTED(reason)`: nothing else changes. -/
abbrev refusedWith (s : State) (reason : Reason) : State := answered s (.rejected reason) []

/-- The state with this word next on the command port, and these behind it. -/
abbrev offering (w : CmdWord) (rest : List CmdWord) (s : State) : State := { s with cmdPort := w :: rest }

/-- The state with these words on the command port. -/
abbrev taken (rest : List CmdWord) (s : State) : State := { s with cmdPort := rest }

/-- The command word of an opcode byte and an operand (30_encoding.md R90). -/
abbrev word (opcode : Byte) (operand : Word64) : CmdWord := (opcode ++ operand : BitVec 72)

/-- Sample value `v_i` of a byte run as a number (20_memory.md R65). -/
abbrev sampleAt (bytes : List Byte) (i : Nat) : Nat :=
  (bytes.getD (4 * i) 0#8).toNat + 2 ^ 8 * (bytes.getD (4 * i + 1) 0#8).toNat +
    2 ^ 16 * (bytes.getD (4 * i + 2) 0#8).toNat + 2 ^ 24 * (bytes.getD (4 * i + 3) 0#8).toNat

/-- The sum of `(base + i + 1) * v_i` over the first `n` samples, over the integers (42_accuraterip.md R167). -/
abbrev weighted (base n : Nat) (bytes : List Byte) : Nat :=
  ((List.range n).map fun i => (base + i + 1) * sampleAt bytes i).sum

/-- The `PROGRESS` event of 43_session.md R202 for these values of `bytesConsumed` and `frameLength`. -/
abbrev progressOf (bytesConsumed frameLength : Word64) : Event :=
  .progress (BitVec.ofInt 64 (min ((bytesConsumed.toNat / 4 : Nat) : Int) frameLength.toInt))
    (BitVec.ofInt 64 frameLength.toInt)

/-- What the `BYTE` that completes a sector leaves, for the accumulator and the sector count the algorithm
gives (40_frame_assembler.md R122, R123). -/
abbrev drained (s : State) (acc : Word32) (count : Word64) : State :=
  okWith { s with
      fifo := []
      nextSampleOffset := s.nextSampleOffset + 1#64
      bytesConsumed := s.bytesConsumed + 2352#64
      acc := acc
      discFrameCounter := count }
    [progressOf (s.bytesConsumed + 2352#64) s.frameLength]

/-- How many whole sectors a number of bytes makes. -/
abbrev sectors (bytes : Nat) : Nat := bytes / 2352

/-- The columns `mask` and `match` of spec/opcode_table.json, row by row. -/
abbrev opcodeTable : List (CmdWord × CmdWord) :=
  [(0xFFFFFFFFFFFFFFFFFE#72, 0x010000000000000000#72), (0xFFFFFFFFFFFFFF0000#72, 0x020000000000000000#72),
   (0xFF0000000000000000#72, 0x030000000000000000#72), (0xFF0000000000000000#72, 0x040000000000000000#72),
   (0xFFFFFFFFFFFFFFFFFF#72, 0x050000000000000000#72), (0xFFFFFFFFFFFFFFFFFF#72, 0x080000000000000000#72),
   (0xFF0000000000000000#72, 0x090000000000000000#72), (0xFFFFFFFFFFFFFFFFFF#72, 0x0A0000000000000000#72),
   (0xFF0000000000000000#72, 0x100000000000000000#72), (0xFFFFFFFFFFFFFFFF00#72, 0x110000000000000000#72),
   (0xFFFFFFFFFFFFFFFFFF#72, 0x120000000000000000#72), (0xFFFFFFFFFFFFFFFF00#72, 0x200000000000000000#72)]

/-- The states the transition table of 43_session.md R204 lets a command be executed in. -/
def executableIn : Instr → List Lifecycle
  | .setalg _ => [.created]
  | .settrk _ _ => [.created]
  | .setstart _ => [.created]
  | .setlen _ => [.created]
  | .notfound => [.created]
  | .start => [.created]
  | .duration _ => [.started]
  | .cancel => [.created, .started, .running]
  | .chunk _ => [.running]
  | .byte _ => [.running]
  | .eos => [.running]
  | .rd _ => [.created, .started, .running, .stopped, .failed]

/-- The entry of the transition table of 43_session.md R204: the state after a command and the content of
`ERR`, in the states of `executableIn`. -/
def transition (i : Instr) (s : State) : Lifecycle × Option TaskError :=
  match i with
  | .setalg _ => (s.st, s.err)
  | .settrk _ _ => (s.st, s.err)
  | .setstart _ => (s.st, s.err)
  | .setlen _ => (s.st, s.err)
  | .notfound => (.failed, some .notFound)
  | .start => (if s.frameLength.toInt < 0 then .started else .running, s.err)
  | .duration total =>
    (if s.frameStart.toNat ≤ total.toNat ∧ total.toNat - s.frameStart.toNat ≤ 2 ^ 63 - 1 then .running
      else .started, s.err)
  | .cancel => (.failed, some .cancelled)
  | .chunk _ => (s.st, s.err)
  | .byte _ => (s.st, s.err)
  | .eos =>
    if s.firstValid = false then (.failed, some .noData)
    else if s.fifo.length % 4 ≠ 0 then (.failed, some .alignment)
    else if s.nextSampleOffset - 1#64 ≠ s.frameEnd then (.stopped, some .truncatedRange)
    else (.stopped, s.err)
  | .rd _ => (s.st, s.err)

/-- The table of 41_crc32.md R142, as it is listed there. -/
def crcListing : List Word32 :=
  [0x00000000#32, 0x77073096#32, 0xEE0E612C#32, 0x990951BA#32, 0x076DC419#32, 0x706AF48F#32, 0xE963A535#32, 0x9E6495A3#32,
   0x0EDB8832#32, 0x79DCB8A4#32, 0xE0D5E91E#32, 0x97D2D988#32, 0x09B64C2B#32, 0x7EB17CBD#32, 0xE7B82D07#32, 0x90BF1D91#32,
   0x1DB71064#32, 0x6AB020F2#32, 0xF3B97148#32, 0x84BE41DE#32, 0x1ADAD47D#32, 0x6DDDE4EB#32, 0xF4D4B551#32, 0x83D385C7#32,
   0x136C9856#32, 0x646BA8C0#32, 0xFD62F97A#32, 0x8A65C9EC#32, 0x14015C4F#32, 0x63066CD9#32, 0xFA0F3D63#32, 0x8D080DF5#32,
   0x3B6E20C8#32, 0x4C69105E#32, 0xD56041E4#32, 0xA2677172#32, 0x3C03E4D1#32, 0x4B04D447#32, 0xD20D85FD#32, 0xA50AB56B#32,
   0x35B5A8FA#32, 0x42B2986C#32, 0xDBBBC9D6#32, 0xACBCF940#32, 0x32D86CE3#32, 0x45DF5C75#32, 0xDCD60DCF#32, 0xABD13D59#32,
   0x26D930AC#32, 0x51DE003A#32, 0xC8D75180#32, 0xBFD06116#32, 0x21B4F4B5#32, 0x56B3C423#32, 0xCFBA9599#32, 0xB8BDA50F#32,
   0x2802B89E#32, 0x5F058808#32, 0xC60CD9B2#32, 0xB10BE924#32, 0x2F6F7C87#32, 0x58684C11#32, 0xC1611DAB#32, 0xB6662D3D#32] ++
  [0x76DC4190#32, 0x01DB7106#32, 0x98D220BC#32, 0xEFD5102A#32, 0x71B18589#32, 0x06B6B51F#32, 0x9FBFE4A5#32, 0xE8B8D433#32,
   0x7807C9A2#32, 0x0F00F934#32, 0x9609A88E#32, 0xE10E9818#32, 0x7F6A0DBB#32, 0x086D3D2D#32, 0x91646C97#32, 0xE6635C01#32,
   0x6B6B51F4#32, 0x1C6C6162#32, 0x856530D8#32, 0xF262004E#32, 0x6C0695ED#32, 0x1B01A57B#32, 0x8208F4C1#32, 0xF50FC457#32,
   0x65B0D9C6#32, 0x12B7E950#32, 0x8BBEB8EA#32, 0xFCB9887C#32, 0x62DD1DDF#32, 0x15DA2D49#32, 0x8CD37CF3#32, 0xFBD44C65#32,
   0x4DB26158#32, 0x3AB551CE#32, 0xA3BC0074#32, 0xD4BB30E2#32, 0x4ADFA541#32, 0x3DD895D7#32, 0xA4D1C46D#32, 0xD3D6F4FB#32,
   0x4369E96A#32, 0x346ED9FC#32, 0xAD678846#32, 0xDA60B8D0#32, 0x44042D73#32, 0x33031DE5#32, 0xAA0A4C5F#32, 0xDD0D7CC9#32,
   0x5005713C#32, 0x270241AA#32, 0xBE0B1010#32, 0xC90C2086#32, 0x5768B525#32, 0x206F85B3#32, 0xB966D409#32, 0xCE61E49F#32,
   0x5EDEF90E#32, 0x29D9C998#32, 0xB0D09822#32, 0xC7D7A8B4#32, 0x59B33D17#32, 0x2EB40D81#32, 0xB7BD5C3B#32, 0xC0BA6CAD#32] ++
  [0xEDB88320#32, 0x9ABFB3B6#32, 0x03B6E20C#32, 0x74B1D29A#32, 0xEAD54739#32, 0x9DD277AF#32, 0x04DB2615#32, 0x73DC1683#32,
   0xE3630B12#32, 0x94643B84#32, 0x0D6D6A3E#32, 0x7A6A5AA8#32, 0xE40ECF0B#32, 0x9309FF9D#32, 0x0A00AE27#32, 0x7D079EB1#32,
   0xF00F9344#32, 0x8708A3D2#32, 0x1E01F268#32, 0x6906C2FE#32, 0xF762575D#32, 0x806567CB#32, 0x196C3671#32, 0x6E6B06E7#32,
   0xFED41B76#32, 0x89D32BE0#32, 0x10DA7A5A#32, 0x67DD4ACC#32, 0xF9B9DF6F#32, 0x8EBEEFF9#32, 0x17B7BE43#32, 0x60B08ED5#32,
   0xD6D6A3E8#32, 0xA1D1937E#32, 0x38D8C2C4#32, 0x4FDFF252#32, 0xD1BB67F1#32, 0xA6BC5767#32, 0x3FB506DD#32, 0x48B2364B#32,
   0xD80D2BDA#32, 0xAF0A1B4C#32, 0x36034AF6#32, 0x41047A60#32, 0xDF60EFC3#32, 0xA867DF55#32, 0x316E8EEF#32, 0x4669BE79#32,
   0xCB61B38C#32, 0xBC66831A#32, 0x256FD2A0#32, 0x5268E236#32, 0xCC0C7795#32, 0xBB0B4703#32, 0x220216B9#32, 0x5505262F#32,
   0xC5BA3BBE#32, 0xB2BD0B28#32, 0x2BB45A92#32, 0x5CB36A04#32, 0xC2D7FFA7#32, 0xB5D0CF31#32, 0x2CD99E8B#32, 0x5BDEAE1D#32] ++
  [0x9B64C2B0#32, 0xEC63F226#32, 0x756AA39C#32, 0x026D930A#32, 0x9C0906A9#32, 0xEB0E363F#32, 0x72076785#32, 0x05005713#32,
   0x95BF4A82#32, 0xE2B87A14#32, 0x7BB12BAE#32, 0x0CB61B38#32, 0x92D28E9B#32, 0xE5D5BE0D#32, 0x7CDCEFB7#32, 0x0BDBDF21#32,
   0x86D3D2D4#32, 0xF1D4E242#32, 0x68DDB3F8#32, 0x1FDA836E#32, 0x81BE16CD#32, 0xF6B9265B#32, 0x6FB077E1#32, 0x18B74777#32,
   0x88085AE6#32, 0xFF0F6A70#32, 0x66063BCA#32, 0x11010B5C#32, 0x8F659EFF#32, 0xF862AE69#32, 0x616BFFD3#32, 0x166CCF45#32,
   0xA00AE278#32, 0xD70DD2EE#32, 0x4E048354#32, 0x3903B3C2#32, 0xA7672661#32, 0xD06016F7#32, 0x4969474D#32, 0x3E6E77DB#32,
   0xAED16A4A#32, 0xD9D65ADC#32, 0x40DF0B66#32, 0x37D83BF0#32, 0xA9BCAE53#32, 0xDEBB9EC5#32, 0x47B2CF7F#32, 0x30B5FFE9#32,
   0xBDBDF21C#32, 0xCABAC28A#32, 0x53B39330#32, 0x24B4A3A6#32, 0xBAD03605#32, 0xCDD70693#32, 0x54DE5729#32, 0x23D967BF#32,
   0xB3667A2E#32, 0xC4614AB8#32, 0x5D681B02#32, 0x2A6F2B94#32, 0xB40BBE37#32, 0xC30C8EA1#32, 0x5A05DF1B#32, 0x2D02EF8D#32]

end Sys2Proof.Claims

open Sys2Proof Sys2Proof.Machine Sys2Proof.Claims

/-! ## Reset, decoding and the step -/

/-- 10_state.md R40: the reset table. The FIFO bytes are unspecified there; `level = 0` leaves none. -/
def Obligations.ResetHoldsTheTable : Prop :=
  State.reset.alg.code = 0#1 ∧ State.reset.trackNumber = 1#8 ∧ State.reset.trackCount = 1#8 ∧
  State.reset.frameStart = 0#64 ∧ State.reset.frameLength = 0xFFFFFFFFFFFFFFFF#64 ∧
  State.reset.frameEnd = 0#64 ∧ State.reset.st.code = 0#3 ∧ errCode State.reset.err = 0#3 ∧
  State.reset.missing = 0#64 ∧ State.reset.acc = 0#32 ∧ State.reset.bytesConsumed = 0#64 ∧
  State.reset.discFrameCounter = 0#64 ∧ State.reset.firstValid = false ∧
  State.reset.firstSampleOffset = 0#64 ∧ State.reset.nextSampleOffset = 0#64 ∧ State.reset.level = 0

/-- Every command, with every operand, is read back from its own word (30_encoding.md R90, R93, R94). It holds
of the ill-formed `RD` numbers too: the decoder reads them and the command refuses them. -/
def Obligations.DecodeOfEncodeIsTheCommand : Prop :=
  ∀ i : Instr, decode (encode i) = .instr i

/-- Every word has one meaning: a decoded command's word is the word it was read from (R93 to R95). -/
def Obligations.EncodeOfDecodeIsTheWord : Prop :=
  ∀ (w : CmdWord) (i : Instr), decode w = .instr i → encode i = w

/-- The decoder reads a command from exactly the words that match a row of spec/opcode_table.json, and each of
them matches one row only (30_encoding.md, its opening paragraph; R93, R95, R96). -/
def Obligations.DecodeAcceptsExactlyTheTable : Prop :=
  ∀ w : CmdWord,
    ((∃ i, decode w = .instr i) ↔ ∃ row ∈ opcodeTable, w &&& row.1 = row.2) ∧
    (opcodeTable.filter fun row => w &&& row.1 == row.2).length ≤ 1

/-- Words of 95_test_vectors.md, V-E-1 to V-E-16, decode to the commands they stand for. -/
def Obligations.SpecWordsDecode : Prop :=
  decode 0x010000000000000000#72 = .instr (.setalg .crc32) ∧
  decode 0x010000000000000001#72 = .instr (.setalg .accurateRip) ∧
  decode 0x020000000000000C01#72 = .instr (.settrk 1#8 12#8) ∧
  decode 0x020000000000000302#72 = .instr (.settrk 2#8 3#8) ∧
  decode 0x03000000000000024C#72 = .instr (.setstart 588#64) ∧
  decode 0x040000000000001B90#72 = .instr (.setlen 7056#64) ∧
  decode 0x04FFFFFFFFFFFFFFFF#72 = .instr (.setlen 0xFFFFFFFFFFFFFFFF#64) ∧
  decode 0x050000000000000000#72 = .instr .notfound ∧
  decode 0x080000000000000000#72 = .instr .start ∧
  decode 0x090000000000000930#72 = .instr (.duration 2352#64) ∧
  decode 0x0A0000000000000000#72 = .instr .cancel ∧
  decode 0x100000000000000498#72 = .instr (.chunk 1176#64) ∧
  decode 0x1100000000000000AB#72 = .instr (.byte 0xAB#8) ∧
  decode 0x120000000000000000#72 = .instr .eos ∧
  decode 0x200000000000000002#72 = .instr (.rd 2#8) ∧
  decode 0x20000000000000000E#72 = .instr (.rd 14#8)

/-- A step runs the decoded command: when the next word on the port decodes to `i`, step is `exec i` at the
state with that word taken (00_scope.md R9, 20_memory.md R75). That the port is a field of the state, and
that its front word is the next one, is the model's choice (log entry 1). -/
def Obligations.StepRunsTheDecodedCommand : Prop :=
  ∀ (s : State) (w : CmdWord) (rest : List CmdWord) (i : Instr),
    s.cmdPort = w :: rest → decode w = .instr i → step s = exec i (taken rest s)

/-- With nothing on the port a step changes nothing (60_exceptions.md R261, 70_reset_and_hazards.md R282). That
an idle core still takes a step is the model's choice (log entry 3). -/
def Obligations.IdleStepChangesNothing : Prop :=
  ∀ s : State, s.cmdPort = [] → step s = .next s

/-- 30_encoding.md R96: every opcode outside R93 is rejected with `RSN_OPCODE`, in every state. -/
def Obligations.ReservedOpcodeIsRejected : Prop :=
  ∀ (s : State) (opcode : Byte) (operand : Word64) (rest : List CmdWord),
    (opcode.toNat = 0x00 ∨ opcode.toNat = 0x06 ∨ opcode.toNat = 0x07 ∨
      (0x0B ≤ opcode.toNat ∧ opcode.toNat ≤ 0x0F) ∨ (0x13 ≤ opcode.toNat ∧ opcode.toNat ≤ 0x1F) ∨
      (0x21 ≤ opcode.toNat ∧ opcode.toNat ≤ 0xFF)) →
    step (offering (word opcode operand) rest s) = .next (refusedWith (taken rest s) .opcode)

/-- Every accepted word is answered, once: the step ends in a next state whose answers are the earlier ones and
one more, and the other words still wait (70_reset_and_hazards.md R300, 30_encoding.md R91). The premise is
R41 (a). That answers and waiting words are fields of the state is the model's choice (log entries 1 and 2). -/
def Obligations.EveryAcceptedWordIsAnsweredOnce : Prop :=
  ∀ (s : State) (w : CmdWord) (rest : List CmdWord),
    s.level ≤ 2351 → s.cmdPort = w :: rest →
    ∃ t a, step s = .next t ∧ t.answers = s.answers ++ [a] ∧ t.cmdPort = rest

/-- A rejected word changes no register and emits no event (60_exceptions.md R249, 30_encoding.md R101). -/
def Obligations.RejectedWordChangesNothing : Prop :=
  ∀ (s t : State) (w : CmdWord) (rest : List CmdWord) (reason : Reason) (events : List Event),
    s.cmdPort = w :: rest → step s = .next t →
    t.lastAnswer = some { response := .rejected reason, events := events } →
    t = refusedWith (taken rest s) reason

/-- Running the words of commands, one step each, is executing the commands one after the other
(20_memory.md R75). -/
def Obligations.RunningWordsIsExecutingCommands : Prop :=
  ∀ (is : List Instr) (s : State), s.cmdPort = [] →
    core.run is.length (s.present (is.map encode)) = runAll is s

/-! ## The configuration and lifecycle commands -/

/-- 43_session.md R191, `SETALG`. -/
def Obligations.SetalgWritesTheAlgorithm : Prop :=
  (∀ (s : State) (alg : Algorithm), s.st = .created →
    exec (.setalg alg) s = .next (okWith { s with alg := alg } [])) ∧
  ∀ (s : State) (x : Word64) (rest : List CmdWord),
    step (offering (word 0x01#8 x) rest s) =
      if s.st ≠ .created then .next (refusedWith (taken rest s) .state)
      else if x >>> 1 ≠ 0#64 then .next (refusedWith (taken rest s) .operand)
      else .next (okWith { taken rest s with
        alg := if x.getLsbD 0 then .accurateRip else .crc32 } [])

/-- 43_session.md R192, `SETTRK`: any pair of values is accepted. -/
def Obligations.SettrkWritesBothTrackRegisters : Prop :=
  (∀ (s : State) (number count : Byte), s.st = .created →
    exec (.settrk number count) s =
      .next (okWith { s with trackNumber := number, trackCount := count } [])) ∧
  ∀ (s : State) (x : Word64) (rest : List CmdWord),
    step (offering (word 0x02#8 x) rest s) =
      if s.st ≠ .created then .next (refusedWith (taken rest s) .state)
      else if x >>> 16 ≠ 0#64 then .next (refusedWith (taken rest s) .operand)
      else .next (okWith { taken rest s with
        trackNumber := x.extractLsb' 0 8, trackCount := x.extractLsb' 8 8 } [])

/-- 43_session.md R193, `SETSTART`: every 64-bit value is legal. -/
def Obligations.SetstartWritesFrameStart : Prop :=
  (∀ (s : State) (x : Word64), s.st = .created →
    exec (.setstart x) s = .next (okWith { s with frameStart := x } [])) ∧
  ∀ (s : State) (x : Word64) (rest : List CmdWord),
    step (offering (word 0x03#8 x) rest s) =
      if s.st ≠ .created then .next (refusedWith (taken rest s) .state)
      else .next (okWith { taken rest s with frameStart := x } [])

/-- 43_session.md R194, `SETLEN`: the 64 bits are stored as they are. -/
def Obligations.SetlenWritesFrameLength : Prop :=
  (∀ (s : State) (x : Word64), s.st = .created →
    exec (.setlen x) s = .next (okWith { s with frameLength := x } [])) ∧
  ∀ (s : State) (x : Word64) (rest : List CmdWord),
    step (offering (word 0x04#8 x) rest s) =
      if s.st ≠ .created then .next (refusedWith (taken rest s) .state)
      else .next (okWith { taken rest s with frameLength := x } [])

/-- 43_session.md R195 and R198, `START`: ask for an unknown length, resolve a known one. -/
def Obligations.StartAsksOrResolves : Prop :=
  (∀ s : State, s.st = .created → s.frameLength.toInt < 0 →
    exec .start s = .next (okWith { s with st := .started } [.queryLen])) ∧
  (∀ s : State, s.st = .created → 0 ≤ s.frameLength.toInt →
    exec .start s = .next (okWith
      { s with
        frameEnd := BitVec.ofInt 64 (s.frameStart.toNat + s.frameLength.toInt - 1), st := .running }
      [.seek s.frameStart (BitVec.ofInt 64 (s.frameStart.toNat + s.frameLength.toInt - 1))])) ∧
  ∀ (s : State) (x : Word64) (rest : List CmdWord),
    step (offering (word 0x08#8 x) rest s) =
      if s.st ≠ .created then .next (refusedWith (taken rest s) .state)
      else if x ≠ 0#64 then .next (refusedWith (taken rest s) .operand)
      else exec .start (taken rest s)

/-- 43_session.md R197 and R198, `DURATION`: the resolved length, or a rejection that leaves `Started`. -/
def Obligations.DurationResolvesTheLength : Prop :=
  (∀ (s : State) (total : Word64), s.st = .started → s.frameStart.toNat ≤ total.toNat →
    total.toNat - s.frameStart.toNat ≤ 2 ^ 63 - 1 →
    exec (.duration total) s = .next (okWith
      { s with
        frameLength := BitVec.ofNat 64 (total.toNat - s.frameStart.toNat)
        frameEnd := total - 1#64
        st := .running }
      [.seek s.frameStart (total - 1#64)])) ∧
  (∀ (s : State) (total : Word64), s.st = .started →
    (total.toNat < s.frameStart.toNat ∨ 2 ^ 63 - 1 < total.toNat - s.frameStart.toNat) →
    exec (.duration total) s = .next (refusedWith s .operand)) ∧
  ∀ (s : State) (x : Word64) (rest : List CmdWord),
    step (offering (word 0x09#8 x) rest s) =
      if s.st ≠ .started then .next (refusedWith (taken rest s) .state)
      else exec (.duration x) (taken rest s)

/-- 43_session.md R196, `NOTFOUND`. -/
def Obligations.NotfoundFailsTheTask : Prop :=
  (∀ s : State, s.st = .created →
    exec .notfound s =
      .next (okWith { s with err := some .notFound, st := .failed } [.error .notFound 0#64])) ∧
  ∀ (s : State) (x : Word64) (rest : List CmdWord),
    step (offering (word 0x05#8 x) rest s) =
      if s.st ≠ .created then .next (refusedWith (taken rest s) .state)
      else if x ≠ 0#64 then .next (refusedWith (taken rest s) .operand)
      else exec .notfound (taken rest s)

/-- 43_session.md R199, `CANCEL`: FIFO, accumulator and counters are left as they are. -/
def Obligations.CancelFailsTheTask : Prop :=
  (∀ s : State, s.st = .created →
    exec .cancel s =
      .next (okWith { s with err := some .cancelled, st := .failed } [.error .cancelled 0#64])) ∧
  (∀ s : State, s.st = .started ∨ s.st = .running →
    exec .cancel s =
      .next (okWith { s with err := some .cancelled, st := .failed } [.stop, .error .cancelled 0#64])) ∧
  ∀ (s : State) (x : Word64) (rest : List CmdWord),
    step (offering (word 0x0A#8 x) rest s) =
      if s.st = .stopped ∨ s.st = .failed then .next (refusedWith (taken rest s) .state)
      else if x ≠ 0#64 then .next (refusedWith (taken rest s) .operand)
      else exec .cancel (taken rest s)

/-- 43_session.md R200, `EOS`, with the order of the tests (60_exceptions.md R252) and `MISSING` (R201). -/
def Obligations.EosFinalizesOrFails : Prop :=
  (∀ s : State, s.st = .running →
    exec .eos s = .next (
      if s.firstValid = false then
        okWith { s with err := some .noData, st := .failed } [.error .noData 0#64]
      else if s.fifo.length % 4 ≠ 0 then
        okWith { s with err := some .alignment, st := .failed } [.error .alignment 0#64]
      else if s.nextSampleOffset - 1#64 ≠ s.frameEnd then
        okWith { s with
            err := some .truncatedRange
            missing := s.frameEnd - (s.nextSampleOffset - 1#64)
            st := .stopped }
          [.error .truncatedRange (s.frameEnd - (s.nextSampleOffset - 1#64)), .done s.acc]
      else okWith { s with st := .stopped } [.done s.acc])) ∧
  ∀ (s : State) (x : Word64) (rest : List CmdWord),
    step (offering (word 0x12#8 x) rest s) =
      if s.st ≠ .running then .next (refusedWith (taken rest s) .state)
      else if x ≠ 0#64 then .next (refusedWith (taken rest s) .operand)
      else exec .eos (taken rest s)

/-- 43_session.md R204: the transition table, with the error code each transition writes. -/
def Obligations.TransitionTable : Prop :=
  (∀ (i : Instr) (s : State), s.st ∉ executableIn i → exec i s = .next (refusedWith s .state)) ∧
  (∀ (i : Instr) (s t : State), s.st ∈ executableIn i → exec i s = .next t →
    (t.st, t.err) = transition i s) ∧
  ∀ (s : State) (b : Byte), s.st = .running → s.firstValid = false →
    exec (.byte b) s = .next (refusedWith s .state)

/-! ## The stream commands and the sector drain -/

/-- 40_frame_assembler.md R121, `CHUNK`: the first offset is latched, the FIFO is not touched. -/
def Obligations.ChunkLoadsTheOffset : Prop :=
  (∀ (s : State) (offset : Word64), s.st = .running →
    exec (.chunk offset) s = .next (okWith
      { s with
        firstSampleOffset := if s.firstValid then s.firstSampleOffset else offset
        firstValid := true
        nextSampleOffset := offset } [])) ∧
  ∀ (s : State) (x : Word64) (rest : List CmdWord),
    step (offering (word 0x10#8 x) rest s) =
      if s.st ≠ .running then .next (refusedWith (taken rest s) .state)
      else exec (.chunk x) (taken rest s)

/-- 40_frame_assembler.md R122, `BYTE`: below a sector; completing a sector (the accumulator and the sector count
are the algorithm's, in the statements on `Crc32Sector` and `ArSector`); before any chunk; and its word. The
premises on `level` are R41 (a). What `PROGRESS`
carries for a negative `frameLength` is the model's reading (log entry 22). -/
def Obligations.BytePushesAndDrains : Prop :=
  (∀ (s : State) (b : Byte), s.st = .running → s.firstValid = true → s.level < 2351 →
    exec (.byte b) s = .next (okWith
      { s with
        fifo := s.fifo ++ [b]
        nextSampleOffset :=
          if (s.level + 1) % 4 = 0 then s.nextSampleOffset + 1#64 else s.nextSampleOffset } [])) ∧
  (∀ (s : State) (b : Byte), s.st = .running → s.firstValid = true → s.level = 2351 →
    ∃ acc count, exec (.byte b) s = .next (drained s acc count)) ∧
  (∀ (s : State) (b : Byte), s.st = .running → s.firstValid = false →
    exec (.byte b) s = .next (refusedWith s .state)) ∧
  ∀ (s : State) (x : Word64) (rest : List CmdWord),
    step (offering (word 0x11#8 x) rest s) =
      if s.st ≠ .running then .next (refusedWith (taken rest s) .state)
      else if x >>> 8 ≠ 0#64 then .next (refusedWith (taken rest s) .operand)
      else exec (.byte (x.extractLsb' 0 8)) (taken rest s)

/-- `BYTE` with 2352 bytes or more already held has no effect in the spec (`FifoPush` requires `level <= 2351`,
20_memory.md R63); that it stops with a named fault is the model's choice (log entry 5). No run from reset
reaches such a state. -/
def Obligations.ByteBeyondCapacityFaults : Prop :=
  ∀ (s : State) (b : Byte), s.st = .running → s.firstValid = true → 2352 ≤ s.level →
    exec (.byte b) s = .fault .fifoOverflow

/-- 41_crc32.md R143 with 40_frame_assembler.md R123, R127: in CRC32 mode the drain folds every byte of the sector
into `ACC`, first byte first, and leaves `discFrameCounter`; no track register matters. What `PROGRESS` carries
for a negative `frameLength` is the model's reading (log entry 22). -/
def Obligations.CrcSectorFoldsEveryByte : Prop :=
  ∀ (s : State) (b : Byte), s.st = .running → s.firstValid = true → s.level = 2351 → s.alg = .crc32 →
    exec (.byte b) s =
      .next (drained s ((s.fifo ++ [b]).foldl crc32Byte s.acc) s.discFrameCounter)

/-- 42_accuraterip.md R168: the AccurateRip update, in the source's order. Two corners that no practical run
reaches are the model's reading: at `n = 0`, after `discFrameCounter` has wrapped, the head is skipped as R168
writes and R163 does not (log entry 8); a negative `frameLength` is read over the integers (log entry 22). -/
def Obligations.ArSectorFollowsTheRule : Prop :=
  ∀ (s : State) (b : Byte), s.st = .running → s.firstValid = true → s.level = 2351 →
    s.alg = .accurateRip →
    let sector := s.fifo ++ [b]
    let n := (s.discFrameCounter + 1#64).toNat
    exec (.byte b) s = .next (drained s
      (if s.trackNumber = 1#8 ∧ n ≤ 4 then s.acc
       else if s.trackNumber = 1#8 ∧ n = 5 then
         BitVec.ofNat 32 (s.acc.toNat + 2940 * sampleAt sector 587)
       else if s.trackNumber = s.trackCount ∧ s.frameLength.toInt / 588 < (n : Int) + 5 then s.acc
       else BitVec.ofNat 32 (s.acc.toNat + weighted (s.bytesConsumed.toNat / 4) 588 sector))
      (s.discFrameCounter + 1#64))

/-- 43_session.md R202: the pair a drained sector reports, as numbers. The premise on `frameLength` is R41 (g). -/
def Obligations.ProgressIsTheExactRatio : Prop :=
  ∀ (s : State) (b : Byte), s.st = .running → s.firstValid = true → s.level = 2351 →
    0 ≤ s.frameLength.toInt →
    ∃ t num den, exec (.byte b) s = .next t ∧
      t.lastAnswer = some { response := .ok 0#64, events := [.progress num den] } ∧
      (num.toNat : Int) =
        min ((((s.bytesConsumed.toNat + 2352) % 2 ^ 64 / 4 : Nat) : Int)) s.frameLength.toInt ∧
      (den.toNat : Int) = s.frameLength.toInt

/-- 43_session.md R203 (a): a command emits `PROGRESS` exactly when it is the `BYTE` that completes a sector. -/
def Obligations.ProgressOnlyFromADrain : Prop :=
  ∀ (i : Instr) (s t : State), exec i s = .next t →
    ((∃ num den a, t.lastAnswer = some a ∧ t.answers = s.answers ++ [a] ∧ Event.progress num den ∈ a.events) ↔
      (i.opcode = .byte ∧ s.st = .running ∧ s.firstValid = true ∧ s.level = 2351))

/-- 43_session.md R203 (b): along a stream in `Running` the reported numerators never fall, the denominator is
`frameLength`, and no numerator passes it. The premise that `bytesConsumed` does not wrap is R31's remark. -/
def Obligations.ProgressNeverFalls : Prop :=
  ∀ (s : State) (r : List Instr), Inv s → s.st = .running → (∀ i ∈ r, isStream i = true) →
    s.bytesConsumed.toNat + s.level + (dataOf r).length < 2 ^ 64 →
    ∃ t new, runAll r s = .next t ∧ t.answers = s.answers ++ new ∧
      (new.flatMap Answer.events).Pairwise (fun e e' =>
        ∃ num num', e = .progress num s.frameLength ∧ e' = .progress num' s.frameLength ∧
          num.toNat ≤ num'.toNat) ∧
      ∀ e ∈ new.flatMap Answer.events, ∃ num, e = .progress num s.frameLength ∧
        num.toNat ≤ s.frameLength.toNat

/-- 20_memory.md R64 and 40_frame_assembler.md R125: a stream fills whole sectors and the tail stays in the FIFO. -/
def Obligations.FifoHoldsTheTail : Prop :=
  ∀ (s : State) (offset : Word64) (r : List Instr), s.st = .running → s.level ≤ 2351 →
    (∀ i ∈ r, isStream i = true) →
    ∃ t, runAll (.chunk offset :: r) s = .next t ∧
      t.fifo = (s.fifo ++ dataOf r).drop (2352 * sectors (s.fifo ++ dataOf r).length) ∧
      t.bytesConsumed = s.bytesConsumed + BitVec.ofNat 64 (2352 * sectors (s.fifo ++ dataOf r).length)

/-- 40_frame_assembler.md R126: from a sample boundary, a chunk of `n` bytes leaves `offset + n / 4`. -/
def Obligations.OffsetCountsWholeSamples : Prop :=
  ∀ (s : State) (offset : Word64) (bytes : List Byte), s.st = .running → s.level ≤ 2351 →
    s.level % 4 = 0 →
    ∃ t, runAll (chunkPacket offset bytes) s = .next t ∧
      t.nextSampleOffset = offset + BitVec.ofNat 64 (bytes.length / 4)

/-- 40_frame_assembler.md R124, chunking invariance, for any total length: two streams of the same bytes, cut into
chunks in any two ways, give the same checksum, counters, FIFO and events. -/
def Obligations.ChunkingInvariance : Prop :=
  ∀ (s : State) (o o' : Word64) (r r' : List Instr), s.st = .running → s.level ≤ 2351 →
    (∀ i ∈ r, isStream i = true) → (∀ i ∈ r', isStream i = true) → dataOf r = dataOf r' →
    ∃ t t', runAll (.chunk o :: r) s = .next t ∧ runAll (.chunk o' :: r') s = .next t' ∧
      t.acc = t'.acc ∧ t.bytesConsumed = t'.bytesConsumed ∧
      t.discFrameCounter = t'.discFrameCounter ∧ t.fifo = t'.fifo ∧ t.events = t'.events

/-- 43_session.md R201 under the collaborator's contract: the truncation is flagged exactly when the number of
whole samples received differs from `frameLength`, and `MISSING` is the difference. -/
def Obligations.TruncationUnderTheContract : Prop :=
  ∀ (s : State) (chunks : List (List Byte)), FreshRunning s → chunks ≠ [] → wholeChunks chunks = true →
    chunks.flatten.length / 4 < 2 ^ 64 →
    ∃ t, runAll (contractStream s.frameStart chunks ++ [.eos]) s = .next t ∧ t.st = .stopped ∧
      (t.err = some .truncatedRange ↔ ((chunks.flatten.length / 4 : Nat) : Int) ≠ s.frameLength.toInt) ∧
      t.missing = BitVec.ofInt 64 (s.frameLength.toInt - (chunks.flatten.length / 4 : Nat))

/-- 60_exceptions.md R245: `EOS` raises `NoDataError` exactly when no `CHUNK` was accepted since reset. Between
`START` and `EOS` only `CHUNK`, `BYTE` and `RD` are executed without leaving `Running`. -/
def Obligations.NoDataExactlyWithoutAChunk : Prop :=
  ∀ (s : State) (r : List Instr), FreshRunning s →
    (∀ i ∈ r, i.opcode = .chunk ∨ i.opcode = .byte ∨ i.opcode = .rd) →
    ∃ t, runAll (r ++ [.eos]) s = .next t ∧
      (t.err = some .noData ↔ ∀ i ∈ r, i.opcode ≠ .chunk)

/-! ## The CRC32 generator -/

/-- 41_crc32.md R142: the table form equals the loop for every `a` and `b`, and the table is the listed one. -/
def Obligations.CrcTableFormEqualsTheLoop : Prop :=
  (∀ (a : Word32) (b : Byte), crc32Byte a b = crc32ByteTable a b) ∧
  ∀ n : Byte, crcListing[n.toNat]? = some (crcTable n)

/-- 41_crc32.md R144: continuation, a fold over a concatenation. -/
def Obligations.CrcContinues : Prop :=
  ∀ (a : Word32) (x y : List Byte), crc32Bytes (crc32Bytes a x) y = crc32Bytes a (x ++ y)

/-- 41_crc32.md R146: the raw shift register is the complement of the presented form at every byte. -/
def Obligations.CrcRawRegisterIsTheComplement : Prop :=
  ∀ (a : Word32) (bytes : List Byte),
    bytes.foldl crcRawStep (a ^^^ 0xFFFFFFFF#32) = crc32Bytes a bytes ^^^ 0xFFFFFFFF#32

/-- 41_crc32.md R147 (a) and (c), and the check value of R140. -/
def Obligations.CrcCheckValues : Prop :=
  crc32Byte 0#32 0x00#8 = 0xD202EF8D#32 ∧ crc32Byte 0#32 0xFF#8 = 0xFF000000#32 ∧
  crc32Byte 0#32 0x61#8 = 0xE8B7BE43#32 ∧
  crcTable 1#8 = 0x77073096#32 ∧ crcTable 128#8 = 0xEDB88320#32 ∧ crcTable 255#8 = 0x2D02EF8D#32 ∧
  crc32Bytes 0#32 [0x31#8, 0x32#8, 0x33#8, 0x34#8, 0x35#8, 0x36#8, 0x37#8, 0x38#8, 0x39#8] = 0xCBF43926#32

/-- 41_crc32.md R145: after a stream `ACC` is the CRC32 of the drained bytes, the tail excluded, and an `EOS` with
an aligned tail delivers it. -/
def Obligations.CrcOfTheStream : Prop :=
  ∀ (s : State) (offset : Word64) (r : List Instr), FreshRunning s → s.alg = .crc32 →
    (∀ i ∈ r, isStream i = true) →
    ∃ t, runAll (.chunk offset :: r) s = .next t ∧
      t.acc = crc32Bytes 0#32 ((dataOf r).take (2352 * sectors (dataOf r).length)) ∧
      ((dataOf r).length % 4 = 0 → ∃ u before, exec .eos t = .next u ∧
        u.lastAnswer = some { response := .ok 0#64, events := before ++ [.done t.acc] })

/-! ## The AccurateRip accumulator -/

/-- 42_accuraterip.md R167 and R170 over a whole stream: on a track that is neither first nor last, `ACC` is the
sum of every drained sample times its 1-based position, modulo 2^32. -/
def Obligations.AccurateRipOfTheStream : Prop :=
  ∀ (s : State) (offset : Word64) (r : List Instr), FreshRunning s → s.alg = .accurateRip →
    s.trackNumber ≠ 1#8 → s.trackNumber ≠ s.trackCount → (∀ i ∈ r, isStream i = true) →
    ∃ t, runAll (.chunk offset :: r) s = .next t ∧
      t.acc = BitVec.ofNat 32 (weighted 0 (588 * sectors (dataOf r).length) (dataOf r)) ∧
      t.discFrameCounter = BitVec.ofNat 64 (sectors (dataOf r).length)

/-- 42_accuraterip.md R171 (a): on the first track, with all samples zero but the last of the fifth sector, `ACC` is
2940 times that value, modulo 2^32. -/
def Obligations.FifthSectorGivesItsLastSample : Prop :=
  ∀ (s : State) (offset : Word64) (b0 b1 b2 b3 : Byte) (m : Nat), FreshRunning s →
    s.alg = .accurateRip → s.trackNumber = 1#8 → m < 2 ^ 32 →
    ∃ t, runAll (chunkPacket offset
        (List.replicate 11756 0#8 ++ [b0, b1, b2, b3] ++ List.replicate m 0#8)) s = .next t ∧
      t.acc = BitVec.ofNat 32 (2940 * sampleAt [b0, b1, b2, b3] 0)

/-- 42_accuraterip.md R171 (b), head: on the first track the bytes of sectors 1 to 4 and of the fifth sector up to
its last sample do not reach `ACC`. -/
def Obligations.HeadSkipHidesTheHead : Prop :=
  ∀ (s : State) (offset : Word64) (head head' rest : List Byte), FreshRunning s →
    s.alg = .accurateRip → s.trackNumber = 1#8 → head.length = 11756 → head'.length = 11756 →
    rest.length < 2 ^ 32 →
    ∃ t t', runAll (chunkPacket offset (head ++ rest)) s = .next t ∧
      runAll (chunkPacket offset (head' ++ rest)) s = .next t' ∧ t.acc = t'.acc

/-- 42_accuraterip.md R171 (b), tail: on the last track the bytes of the last five sectors of the range do not reach
`ACC`. The rule's own exception, the fifth sector of a first track that lies in the tail (R164), is the
premise on `n`, the range in sectors (log entry 11). -/
def Obligations.TailSkipHidesTheTail : Prop :=
  ∀ (s : State) (offset : Word64) (kept tail tail' : List Byte) (n : Nat), FreshRunning s →
    s.alg = .accurateRip → s.trackNumber = s.trackCount → (n : Int) = s.frameLength.toInt / 588 →
    (s.trackNumber ≠ 1#8 ∨ 10 ≤ n) →
    kept.length = 2352 * (n - 5) → tail.length = tail'.length → kept.length + tail.length < 2 ^ 64 →
    ∃ t t', runAll (chunkPacket offset (kept ++ tail)) s = .next t ∧
      runAll (chunkPacket offset (kept ++ tail')) s = .next t' ∧ t.acc = t'.acc

/-! ## Readout, words and values -/

/-- 44_readout.md R230 and R232, `RD`: reserved numbers, the gated result, and an answer in every other case; and its
word. No register changes. -/
def Obligations.RdAnswersOrRefuses : Prop :=
  (∀ (s : State) (reg : Byte), 14 < reg.toNat → exec (.rd reg) s = .next (refusedWith s .operand)) ∧
  (∀ s : State, s.st ≠ .stopped → exec (.rd 2#8) s = .next (refusedWith s .state)) ∧
  (∀ (s : State) (reg : Byte), reg.toNat ≤ 14 → (reg = 2#8 → s.st = .stopped) →
    ∃ v, regValue reg s = some v ∧ exec (.rd reg) s = .next (answered s (.ok v) [])) ∧
  ∀ (s : State) (x : Word64) (rest : List CmdWord),
    step (offering (word 0x20#8 x) rest s) =
      if x >>> 8 ≠ 0#64 then .next (refusedWith (taken rest s) .operand)
      else exec (.rd (x.extractLsb' 0 8)) (taken rest s)

/-- 44_readout.md R231 with 30_encoding.md R102: the value of every register number. -/
def Obligations.RdReadsEveryRegister : Prop :=
  ∀ s : State,
    exec (.rd 0#8) s = .next (answered s (.ok (s.st.code.setWidth 64)) []) ∧
    exec (.rd 1#8) s = .next (answered s (.ok ((errCode s.err).setWidth 64)) []) ∧
    (s.st = .stopped → exec (.rd 2#8) s = .next (answered s (.ok (s.acc.setWidth 64)) [])) ∧
    exec (.rd 3#8) s = .next (answered s (.ok s.missing) []) ∧
    exec (.rd 4#8) s = .next (answered s (.ok (s.alg.code.setWidth 64)) []) ∧
    exec (.rd 5#8) s =
      .next (answered s (.ok (BitVec.ofNat 64 (s.trackNumber.toNat + 256 * s.trackCount.toNat))) []) ∧
    exec (.rd 6#8) s = .next (answered s (.ok s.frameStart) []) ∧
    exec (.rd 7#8) s = .next (answered s (.ok s.frameLength) []) ∧
    exec (.rd 8#8) s = .next (answered s (.ok s.frameEnd) []) ∧
    exec (.rd 9#8) s = .next (answered s (.ok s.bytesConsumed) []) ∧
    exec (.rd 10#8) s = .next (answered s (.ok s.discFrameCounter) []) ∧
    exec (.rd 11#8) s = .next (answered s (.ok s.firstSampleOffset) []) ∧
    exec (.rd 12#8) s = .next (answered s (.ok s.nextSampleOffset) []) ∧
    exec (.rd 13#8) s = .next (answered s (.ok (BitVec.ofNat 64 s.fifo.length)) []) ∧
    exec (.rd 14#8) s = .next (answered s (.ok (if s.firstValid then 1#64 else 0#64)) [])

/-- 30_encoding.md R98, R99, R100: the codes of `ALG`, `ST` and `ERR`. -/
def Obligations.StatusCodes : Prop :=
  Algorithm.code .crc32 = 0#1 ∧ Algorithm.code .accurateRip = 1#1 ∧
  Lifecycle.code .created = 0#3 ∧ Lifecycle.code .started = 1#3 ∧ Lifecycle.code .running = 2#3 ∧
  Lifecycle.code .stopped = 3#3 ∧ Lifecycle.code .failed = 4#3 ∧
  errCode none = 0#3 ∧ errCode (some .notFound) = 1#3 ∧ errCode (some .noData) = 2#3 ∧
  errCode (some .truncatedRange) = 3#3 ∧ errCode (some .alignment) = 4#3 ∧
  errCode (some .cancelled) = 5#3

/-- 44_readout.md R232: outside `Stopped` no `RD` answer depends on the running `ACC`. -/
def Obligations.RunningChecksumIsHidden : Prop :=
  ∀ (s : State) (reg : Byte) (acc : Word32), s.st ≠ .stopped →
    ∃ response, exec (.rd reg) s = .next (answered s response []) ∧
      exec (.rd reg) { s with acc := acc } = .next (answered { s with acc := acc } response [])

/-- 30_encoding.md R91 with the reason codes of R101: the fields of a response word. -/
def Obligations.ResponseWordFields : Prop :=
  (∀ v : Word64, (Response.ok v).encode.extractLsb' 64 2 = 0#2 ∧ (Response.ok v).encode.extractLsb' 0 64 = v) ∧
  (∀ reason : Reason, (Response.rejected reason).encode.extractLsb' 64 2 = 1#2 ∧
    (Response.rejected reason).encode.extractLsb' 8 56 = 0#56 ∧
    (Response.rejected reason).encode.extractLsb' 0 8 = reason.code) ∧
  Reason.code .opcode = 1#8 ∧ Reason.code .state = 2#8 ∧ Reason.code .operand = 3#8

/-- 30_encoding.md R92 and R103: the fields of every event word. -/
def Obligations.EventWordFields : Prop :=
  ∀ (a b : Word64) (acc : Word32) (e : TaskError),
    Event.encode .queryLen = (0x01#8 ++ 0#64 ++ 0#64 : BitVec 136) ∧
    Event.encode (.seek a b) = (0x02#8 ++ a ++ b : BitVec 136) ∧
    Event.encode (.progress a b) = (0x03#8 ++ a ++ b : BitVec 136) ∧
    Event.encode (.done acc) = (0x04#8 ++ (acc.setWidth 64 : Word64) ++ 0#64 : BitVec 136) ∧
    Event.encode (.error e b) = (0x05#8 ++ ((errCode (some e)).setWidth 64 : Word64) ++ b : BitVec 136) ∧
    Event.encode .stop = (0x06#8 ++ 0#64 ++ 0#64 : BitVec 136)

/-- 20_memory.md R65 and R66, 42_accuraterip.md R162: a sector is 588 little-endian sample values, each a pair of
little-endian 16-bit values. -/
def Obligations.SampleValuesAreLittleEndian : Prop :=
  (∀ sector : List Byte, sector.length = 2352 →
    (samplesOf sector).length = 588 ∧
    ∀ i, i < 588 → (samplesOf sector)[i]?.map BitVec.toNat = some (sampleAt sector i)) ∧
  ∀ b0 b1 b2 b3 : Byte,
    (firstHalf (le32 b0 b1 b2 b3)).toNat = b0.toNat + 2 ^ 8 * b1.toNat ∧
    (secondHalf (le32 b0 b1 b2 b3)).toNat = b2.toNat + 2 ^ 8 * b3.toNat

/-! ## Invariants and whole-machine rules -/

/-- 10_state.md R41 holds after reset. -/
def Obligations.ResetMeetsTheInvariant : Prop := Inv State.reset ∧ SectorCounted State.reset

/-- 10_state.md R41: every step keeps the invariant, from every state that meets it, whatever word is offered. The
form of its clause (b), and the clauses R41 does not list, are the model's reading (log entries 9 and 10). -/
def Obligations.StepKeepsTheInvariant : Prop :=
  ∀ s t : State, Inv s → step s = .next t → Inv t

/-- 10_state.md R41 (b) as written: `bytesConsumed` stays a multiple of 2352 as long as it does not wrap (R31). -/
def Obligations.StepKeepsWholeSectors : Prop :=
  ∀ s t : State, SectorCounted s → FarFromWrap s → step s = .next t → SectorCounted t

/-- In a state that meets the invariant a step never stops: rejections are answers (70_reset_and_hazards.md R300). -/
def Obligations.StepNeverStops : Prop :=
  ∀ s : State, Inv s → ∃ t, step s = .next t ∧ Inv t

/-- 10_state.md R42, the W entries: a command changes a register only where the access matrix has a W, and the
model's own fields change as said (log entries 1 and 2). -/
def Obligations.OnlyTheMatrixWrites : Prop :=
  ∀ (i : Instr) (s t : State), exec i s = .next t →
    (t.st ≠ s.st → i.opcode ∈ [.notfound, .start, .duration, .cancel, .eos]) ∧
    (t.err ≠ s.err → i.opcode ∈ [.notfound, .cancel, .eos]) ∧
    (t.missing ≠ s.missing → i.opcode = .eos) ∧
    (t.alg ≠ s.alg → i.opcode = .setalg) ∧
    (t.trackNumber ≠ s.trackNumber ∨ t.trackCount ≠ s.trackCount → i.opcode = .settrk) ∧
    (t.frameStart ≠ s.frameStart → i.opcode = .setstart) ∧
    (t.frameLength ≠ s.frameLength → i.opcode ∈ [.setlen, .duration]) ∧
    (t.frameEnd ≠ s.frameEnd → i.opcode ∈ [.start, .duration]) ∧
    (t.acc ≠ s.acc → i.opcode = .byte) ∧
    (t.bytesConsumed ≠ s.bytesConsumed → i.opcode = .byte) ∧
    (t.discFrameCounter ≠ s.discFrameCounter → i.opcode = .byte) ∧
    (t.firstValid ≠ s.firstValid → i.opcode = .chunk) ∧
    (t.firstSampleOffset ≠ s.firstSampleOffset → i.opcode = .chunk) ∧
    (t.nextSampleOffset ≠ s.nextSampleOffset → i.opcode ∈ [.chunk, .byte]) ∧
    (t.fifo ≠ s.fifo → i.opcode = .byte) ∧
    t.cmdPort = s.cmdPort ∧ ∃ a, t.answers = s.answers ++ [a]

/-- 20_memory.md R78: after `Created` no step changes the configuration, but for the length that `DURATION`
resolves in `Started`. -/
def Obligations.ConfigurationIsFrozen : Prop :=
  ∀ s t : State, s.st ≠ .created → step s = .next t →
    t.alg = s.alg ∧ t.trackNumber = s.trackNumber ∧ t.trackCount = s.trackCount ∧
    t.frameStart = s.frameStart ∧
    (s.st ≠ .started → t.frameLength = s.frameLength ∧ t.frameEnd = s.frameEnd)

/-- 43_session.md R205, 60_exceptions.md R255: in a terminal state every command but `RD` is rejected, and no step
changes a register. -/
def Obligations.TerminalStatesAreFinal : Prop :=
  ∀ s : State, s.st = .stopped ∨ s.st = .failed →
    (∀ i : Instr, i.opcode ≠ .rd → exec i s = .next (refusedWith s .state)) ∧
    ∀ t, step s = .next t → t = { s with cmdPort := t.cmdPort, answers := t.answers }

/-- 60_exceptions.md R255, 10_state.md R28: once an error is recorded no step changes `ERR`, `MISSING` or `ST`. -/
def Obligations.ErrorIsWrittenOnce : Prop :=
  ∀ (s t : State) (e : TaskError), Inv s → s.err = some e → step s = .next t →
    t.err = some e ∧ t.missing = s.missing ∧ t.st = s.st

/-- 60_exceptions.md R241, R242, R254: a command that records an error answers `OK`, emits the `ERROR` event with its
code and information, moves to `Failed` when it is fatal and to `Stopped` otherwise, and leaves every other
register alone. -/
def Obligations.RaisingAnErrorRecordsItOnly : Prop :=
  ∀ (i : Instr) (s t : State) (e : TaskError), s.err = none → exec i s = .next t → t.err = some e →
    ∃ events, Event.error e (if e = .truncatedRange then t.missing else 0#64) ∈ events ∧
      t = okWith { s with
            err := some e
            missing := if e = .truncatedRange then s.frameEnd - (s.nextSampleOffset - 1#64) else s.missing
            st := if e = .truncatedRange then .stopped else .failed }
          events
end

