-- ==== Sys2Proof/Laws/Decode.lean ====
section
/-! SUPPORT. Small laws of the word fields and the opcode map. -/

namespace Sys2Proof

@[simp] theorem opcodeField_cmdWord (c : Byte) (x : Word64) : opcodeField (cmdWord c x) = c := by
  ext i hi
  simp only [opcodeField, cmdWord, BitVec.getElem_extractLsb', BitVec.getLsbD_append]
  rw [if_neg (by omega)]
  simp [hi]

@[simp] theorem operandField_cmdWord (c : Byte) (x : Word64) : operandField (cmdWord c x) = x := by
  ext i hi
  simp only [operandField, cmdWord, BitVec.getElem_extractLsb', BitVec.getLsbD_append]
  rw [if_pos (by omega)]
  simp [hi]

/-- A word is the concatenation of its two fields. -/
theorem cmdWord_fields (w : CmdWord) : cmdWord (opcodeField w) (operandField w) = w := by
  apply BitVec.eq_of_getLsbD_eq
  intro i hi
  simp only [cmdWord, opcodeField, operandField, BitVec.getLsbD_append, BitVec.getLsbD_extractLsb']
  split
  · simp [*]
  · rename_i h
    have h8 : i - 64 < 8 := by omega
    have h64 : 64 + (i - 64) = i := by omega
    simp [h8, h64]

@[simp] theorem ofCode_code (op : Opcode) : Opcode.ofCode op.code = some op := by cases op <;> rfl

/-- The opcode map read backwards names the opcode whose code it was given. -/
theorem code_of_ofCode (c : Byte) (op : Opcode) (h : Opcode.ofCode c = some op) : op.code = c := by
  unfold Opcode.ofCode at h
  split at h <;> cases h <;> exact BitVec.eq_of_toNat_eq (by simp_all [Opcode.code])

@[simp] theorem algorithm_ofCode_code (a : Algorithm) : Algorithm.ofCode a.code = a := by
  cases a <;> rfl

/-- Decoding a word by its two fields. -/
theorem decode_cmdWord (op : Opcode) (x : Word64) :
    decode (cmdWord op.code x) =
      if x &&& op.reservedMask = 0#64 then .instr (op.build x) else .reservedBits op x := by
  simp [decode]

/-- An opcode outside the map decodes to its refusal, whatever the operand. -/
theorem decode_reservedOpcode (c : Byte) (x : Word64) (h : Opcode.ofCode c = none) :
    decode (cmdWord c x) = .reservedOpcode c := by
  simp [decode, h]

/-- A word decodes to a command exactly when it is well-formed. -/
theorem decode_instr_iff_wf (w : CmdWord) : (∃ i, decode w = .instr i) ↔ CmdWord.wf w = true := by
  unfold decode CmdWord.wf
  split
  · simp
  · split <;> simp_all

end Sys2Proof
end

