-- ==== Sys2Proof/Laws/State.lean ====
section
/-! SUPPORT. One lemma per field per update: what each shared state update leaves in each field, so that no
proof unfolds a record update. -/

namespace Sys2Proof.Machine

variable (s : State)

/-! ## `withPort` -/

@[simp] theorem State.withPort_alg (words : List CmdWord) : (s.withPort words).alg = s.alg := rfl
@[simp] theorem State.withPort_trackNumber (words : List CmdWord) : (s.withPort words).trackNumber = s.trackNumber := rfl
@[simp] theorem State.withPort_trackCount (words : List CmdWord) : (s.withPort words).trackCount = s.trackCount := rfl
@[simp] theorem State.withPort_frameStart (words : List CmdWord) : (s.withPort words).frameStart = s.frameStart := rfl
@[simp] theorem State.withPort_frameLength (words : List CmdWord) : (s.withPort words).frameLength = s.frameLength := rfl
@[simp] theorem State.withPort_frameEnd (words : List CmdWord) : (s.withPort words).frameEnd = s.frameEnd := rfl
@[simp] theorem State.withPort_st (words : List CmdWord) : (s.withPort words).st = s.st := rfl
@[simp] theorem State.withPort_err (words : List CmdWord) : (s.withPort words).err = s.err := rfl
@[simp] theorem State.withPort_missing (words : List CmdWord) : (s.withPort words).missing = s.missing := rfl
@[simp] theorem State.withPort_acc (words : List CmdWord) : (s.withPort words).acc = s.acc := rfl
@[simp] theorem State.withPort_bytesConsumed (words : List CmdWord) : (s.withPort words).bytesConsumed = s.bytesConsumed := rfl
@[simp] theorem State.withPort_discFrameCounter (words : List CmdWord) : (s.withPort words).discFrameCounter = s.discFrameCounter := rfl
@[simp] theorem State.withPort_firstValid (words : List CmdWord) : (s.withPort words).firstValid = s.firstValid := rfl
@[simp] theorem State.withPort_firstSampleOffset (words : List CmdWord) : (s.withPort words).firstSampleOffset = s.firstSampleOffset := rfl
@[simp] theorem State.withPort_nextSampleOffset (words : List CmdWord) : (s.withPort words).nextSampleOffset = s.nextSampleOffset := rfl
@[simp] theorem State.withPort_fifo (words : List CmdWord) : (s.withPort words).fifo = s.fifo := rfl
@[simp] theorem State.withPort_cmdPort (words : List CmdWord) : (s.withPort words).cmdPort = words := rfl
@[simp] theorem State.withPort_answers (words : List CmdWord) : (s.withPort words).answers = s.answers := rfl

/-! ## `respond` -/

@[simp] theorem State.respond_alg (r : Response) (evs : List Event) : (s.respond r evs).alg = s.alg := rfl
@[simp] theorem State.respond_trackNumber (r : Response) (evs : List Event) : (s.respond r evs).trackNumber = s.trackNumber := rfl
@[simp] theorem State.respond_trackCount (r : Response) (evs : List Event) : (s.respond r evs).trackCount = s.trackCount := rfl
@[simp] theorem State.respond_frameStart (r : Response) (evs : List Event) : (s.respond r evs).frameStart = s.frameStart := rfl
@[simp] theorem State.respond_frameLength (r : Response) (evs : List Event) : (s.respond r evs).frameLength = s.frameLength := rfl
@[simp] theorem State.respond_frameEnd (r : Response) (evs : List Event) : (s.respond r evs).frameEnd = s.frameEnd := rfl
@[simp] theorem State.respond_st (r : Response) (evs : List Event) : (s.respond r evs).st = s.st := rfl
@[simp] theorem State.respond_err (r : Response) (evs : List Event) : (s.respond r evs).err = s.err := rfl
@[simp] theorem State.respond_missing (r : Response) (evs : List Event) : (s.respond r evs).missing = s.missing := rfl
@[simp] theorem State.respond_acc (r : Response) (evs : List Event) : (s.respond r evs).acc = s.acc := rfl
@[simp] theorem State.respond_bytesConsumed (r : Response) (evs : List Event) : (s.respond r evs).bytesConsumed = s.bytesConsumed := rfl
@[simp] theorem State.respond_discFrameCounter (r : Response) (evs : List Event) : (s.respond r evs).discFrameCounter = s.discFrameCounter := rfl
@[simp] theorem State.respond_firstValid (r : Response) (evs : List Event) : (s.respond r evs).firstValid = s.firstValid := rfl
@[simp] theorem State.respond_firstSampleOffset (r : Response) (evs : List Event) : (s.respond r evs).firstSampleOffset = s.firstSampleOffset := rfl
@[simp] theorem State.respond_nextSampleOffset (r : Response) (evs : List Event) : (s.respond r evs).nextSampleOffset = s.nextSampleOffset := rfl
@[simp] theorem State.respond_fifo (r : Response) (evs : List Event) : (s.respond r evs).fifo = s.fifo := rfl
@[simp] theorem State.respond_cmdPort (r : Response) (evs : List Event) : (s.respond r evs).cmdPort = s.cmdPort := rfl
@[simp] theorem State.respond_answers (r : Response) (evs : List Event) : (s.respond r evs).answers = s.answers ++ [{ response := r, events := evs }] := rfl

/-! ## `raise` -/

@[simp] theorem State.raise_alg (e : TaskError) (m : Word64) : (s.raise e m).alg = s.alg := rfl
@[simp] theorem State.raise_trackNumber (e : TaskError) (m : Word64) : (s.raise e m).trackNumber = s.trackNumber := rfl
@[simp] theorem State.raise_trackCount (e : TaskError) (m : Word64) : (s.raise e m).trackCount = s.trackCount := rfl
@[simp] theorem State.raise_frameStart (e : TaskError) (m : Word64) : (s.raise e m).frameStart = s.frameStart := rfl
@[simp] theorem State.raise_frameLength (e : TaskError) (m : Word64) : (s.raise e m).frameLength = s.frameLength := rfl
@[simp] theorem State.raise_frameEnd (e : TaskError) (m : Word64) : (s.raise e m).frameEnd = s.frameEnd := rfl
@[simp] theorem State.raise_st (e : TaskError) (m : Word64) : (s.raise e m).st = if e.fatal then .failed else s.st := rfl
@[simp] theorem State.raise_err (e : TaskError) (m : Word64) : (s.raise e m).err = some e := rfl
@[simp] theorem State.raise_missing (e : TaskError) (m : Word64) : (s.raise e m).missing = if e = .truncatedRange then m else s.missing := rfl
@[simp] theorem State.raise_acc (e : TaskError) (m : Word64) : (s.raise e m).acc = s.acc := rfl
@[simp] theorem State.raise_bytesConsumed (e : TaskError) (m : Word64) : (s.raise e m).bytesConsumed = s.bytesConsumed := rfl
@[simp] theorem State.raise_discFrameCounter (e : TaskError) (m : Word64) : (s.raise e m).discFrameCounter = s.discFrameCounter := rfl
@[simp] theorem State.raise_firstValid (e : TaskError) (m : Word64) : (s.raise e m).firstValid = s.firstValid := rfl
@[simp] theorem State.raise_firstSampleOffset (e : TaskError) (m : Word64) : (s.raise e m).firstSampleOffset = s.firstSampleOffset := rfl
@[simp] theorem State.raise_nextSampleOffset (e : TaskError) (m : Word64) : (s.raise e m).nextSampleOffset = s.nextSampleOffset := rfl
@[simp] theorem State.raise_fifo (e : TaskError) (m : Word64) : (s.raise e m).fifo = s.fifo := rfl
@[simp] theorem State.raise_cmdPort (e : TaskError) (m : Word64) : (s.raise e m).cmdPort = s.cmdPort := rfl
@[simp] theorem State.raise_answers (e : TaskError) (m : Word64) : (s.raise e m).answers = s.answers := rfl

/-! ## `resolve` -/

@[simp] theorem State.resolve_alg : (s.resolve).alg = s.alg := rfl
@[simp] theorem State.resolve_trackNumber : (s.resolve).trackNumber = s.trackNumber := rfl
@[simp] theorem State.resolve_trackCount : (s.resolve).trackCount = s.trackCount := rfl
@[simp] theorem State.resolve_frameStart : (s.resolve).frameStart = s.frameStart := rfl
@[simp] theorem State.resolve_frameLength : (s.resolve).frameLength = s.frameLength := rfl
@[simp] theorem State.resolve_frameEnd : (s.resolve).frameEnd = BitVec.ofInt 64 (s.frameStart.toNat + signed64 s.frameLength - 1) := rfl
@[simp] theorem State.resolve_st : (s.resolve).st = .running := rfl
@[simp] theorem State.resolve_err : (s.resolve).err = s.err := rfl
@[simp] theorem State.resolve_missing : (s.resolve).missing = s.missing := rfl
@[simp] theorem State.resolve_acc : (s.resolve).acc = s.acc := rfl
@[simp] theorem State.resolve_bytesConsumed : (s.resolve).bytesConsumed = s.bytesConsumed := rfl
@[simp] theorem State.resolve_discFrameCounter : (s.resolve).discFrameCounter = s.discFrameCounter := rfl
@[simp] theorem State.resolve_firstValid : (s.resolve).firstValid = s.firstValid := rfl
@[simp] theorem State.resolve_firstSampleOffset : (s.resolve).firstSampleOffset = s.firstSampleOffset := rfl
@[simp] theorem State.resolve_nextSampleOffset : (s.resolve).nextSampleOffset = s.nextSampleOffset := rfl
@[simp] theorem State.resolve_fifo : (s.resolve).fifo = s.fifo := rfl
@[simp] theorem State.resolve_cmdPort : (s.resolve).cmdPort = s.cmdPort := rfl
@[simp] theorem State.resolve_answers : (s.resolve).answers = s.answers := rfl

/-! ## `countSector` -/

@[simp] theorem State.countSector_alg : (s.countSector).alg = s.alg := rfl
@[simp] theorem State.countSector_trackNumber : (s.countSector).trackNumber = s.trackNumber := rfl
@[simp] theorem State.countSector_trackCount : (s.countSector).trackCount = s.trackCount := rfl
@[simp] theorem State.countSector_frameStart : (s.countSector).frameStart = s.frameStart := rfl
@[simp] theorem State.countSector_frameLength : (s.countSector).frameLength = s.frameLength := rfl
@[simp] theorem State.countSector_frameEnd : (s.countSector).frameEnd = s.frameEnd := rfl
@[simp] theorem State.countSector_st : (s.countSector).st = s.st := rfl
@[simp] theorem State.countSector_err : (s.countSector).err = s.err := rfl
@[simp] theorem State.countSector_missing : (s.countSector).missing = s.missing := rfl
@[simp] theorem State.countSector_acc : (s.countSector).acc = s.acc := rfl
@[simp] theorem State.countSector_bytesConsumed : (s.countSector).bytesConsumed = s.bytesConsumed := rfl
@[simp] theorem State.countSector_discFrameCounter : (s.countSector).discFrameCounter = s.discFrameCounter + 1#64 := rfl
@[simp] theorem State.countSector_firstValid : (s.countSector).firstValid = s.firstValid := rfl
@[simp] theorem State.countSector_firstSampleOffset : (s.countSector).firstSampleOffset = s.firstSampleOffset := rfl
@[simp] theorem State.countSector_nextSampleOffset : (s.countSector).nextSampleOffset = s.nextSampleOffset := rfl
@[simp] theorem State.countSector_fifo : (s.countSector).fifo = s.fifo := rfl
@[simp] theorem State.countSector_cmdPort : (s.countSector).cmdPort = s.cmdPort := rfl
@[simp] theorem State.countSector_answers : (s.countSector).answers = s.answers := rfl

/-! ## `addAcc` -/

@[simp] theorem State.addAcc_alg (x : Word32) : (s.addAcc x).alg = s.alg := rfl
@[simp] theorem State.addAcc_trackNumber (x : Word32) : (s.addAcc x).trackNumber = s.trackNumber := rfl
@[simp] theorem State.addAcc_trackCount (x : Word32) : (s.addAcc x).trackCount = s.trackCount := rfl
@[simp] theorem State.addAcc_frameStart (x : Word32) : (s.addAcc x).frameStart = s.frameStart := rfl
@[simp] theorem State.addAcc_frameLength (x : Word32) : (s.addAcc x).frameLength = s.frameLength := rfl
@[simp] theorem State.addAcc_frameEnd (x : Word32) : (s.addAcc x).frameEnd = s.frameEnd := rfl
@[simp] theorem State.addAcc_st (x : Word32) : (s.addAcc x).st = s.st := rfl
@[simp] theorem State.addAcc_err (x : Word32) : (s.addAcc x).err = s.err := rfl
@[simp] theorem State.addAcc_missing (x : Word32) : (s.addAcc x).missing = s.missing := rfl
@[simp] theorem State.addAcc_acc (x : Word32) : (s.addAcc x).acc = s.acc + x := rfl
@[simp] theorem State.addAcc_bytesConsumed (x : Word32) : (s.addAcc x).bytesConsumed = s.bytesConsumed := rfl
@[simp] theorem State.addAcc_discFrameCounter (x : Word32) : (s.addAcc x).discFrameCounter = s.discFrameCounter := rfl
@[simp] theorem State.addAcc_firstValid (x : Word32) : (s.addAcc x).firstValid = s.firstValid := rfl
@[simp] theorem State.addAcc_firstSampleOffset (x : Word32) : (s.addAcc x).firstSampleOffset = s.firstSampleOffset := rfl
@[simp] theorem State.addAcc_nextSampleOffset (x : Word32) : (s.addAcc x).nextSampleOffset = s.nextSampleOffset := rfl
@[simp] theorem State.addAcc_fifo (x : Word32) : (s.addAcc x).fifo = s.fifo := rfl
@[simp] theorem State.addAcc_cmdPort (x : Word32) : (s.addAcc x).cmdPort = s.cmdPort := rfl
@[simp] theorem State.addAcc_answers (x : Word32) : (s.addAcc x).answers = s.answers := rfl

/-! ## `consumeSector` -/

@[simp] theorem State.consumeSector_alg : (s.consumeSector).alg = s.alg := by
  unfold State.consumeSector; rfl
@[simp] theorem State.consumeSector_trackNumber : (s.consumeSector).trackNumber = s.trackNumber := by
  unfold State.consumeSector; rfl
@[simp] theorem State.consumeSector_trackCount : (s.consumeSector).trackCount = s.trackCount := by
  unfold State.consumeSector; rfl
@[simp] theorem State.consumeSector_frameStart : (s.consumeSector).frameStart = s.frameStart := by
  unfold State.consumeSector; rfl
@[simp] theorem State.consumeSector_frameLength : (s.consumeSector).frameLength = s.frameLength := by
  unfold State.consumeSector; rfl
@[simp] theorem State.consumeSector_frameEnd : (s.consumeSector).frameEnd = s.frameEnd := by
  unfold State.consumeSector; rfl
@[simp] theorem State.consumeSector_st : (s.consumeSector).st = s.st := by
  unfold State.consumeSector; rfl
@[simp] theorem State.consumeSector_err : (s.consumeSector).err = s.err := by
  unfold State.consumeSector; rfl
@[simp] theorem State.consumeSector_missing : (s.consumeSector).missing = s.missing := by
  unfold State.consumeSector; rfl
@[simp] theorem State.consumeSector_acc : (s.consumeSector).acc = s.acc := by
  unfold State.consumeSector; rfl
@[simp] theorem State.consumeSector_bytesConsumed : (s.consumeSector).bytesConsumed = s.bytesConsumed + 2352#64 := by
  unfold State.consumeSector; rfl
@[simp] theorem State.consumeSector_discFrameCounter : (s.consumeSector).discFrameCounter = s.discFrameCounter := by
  unfold State.consumeSector; rfl
@[simp] theorem State.consumeSector_firstValid : (s.consumeSector).firstValid = s.firstValid := by
  unfold State.consumeSector; rfl
@[simp] theorem State.consumeSector_firstSampleOffset : (s.consumeSector).firstSampleOffset = s.firstSampleOffset := by
  unfold State.consumeSector; rfl
@[simp] theorem State.consumeSector_nextSampleOffset : (s.consumeSector).nextSampleOffset = s.nextSampleOffset := by
  unfold State.consumeSector; rfl
@[simp] theorem State.consumeSector_fifo : (s.consumeSector).fifo = s.fifo := by
  unfold State.consumeSector; rfl
@[simp] theorem State.consumeSector_cmdPort : (s.consumeSector).cmdPort = s.cmdPort := by
  unfold State.consumeSector; rfl
@[simp] theorem State.consumeSector_answers : (s.consumeSector).answers = s.answers := by
  unfold State.consumeSector; rfl

/-! ## `crcSectorUpdate` -/

@[simp] theorem crcSectorUpdate_alg (sector : List Byte) : (crcSectorUpdate sector s).alg = s.alg := rfl
@[simp] theorem crcSectorUpdate_trackNumber (sector : List Byte) : (crcSectorUpdate sector s).trackNumber = s.trackNumber := rfl
@[simp] theorem crcSectorUpdate_trackCount (sector : List Byte) : (crcSectorUpdate sector s).trackCount = s.trackCount := rfl
@[simp] theorem crcSectorUpdate_frameStart (sector : List Byte) : (crcSectorUpdate sector s).frameStart = s.frameStart := rfl
@[simp] theorem crcSectorUpdate_frameLength (sector : List Byte) : (crcSectorUpdate sector s).frameLength = s.frameLength := rfl
@[simp] theorem crcSectorUpdate_frameEnd (sector : List Byte) : (crcSectorUpdate sector s).frameEnd = s.frameEnd := rfl
@[simp] theorem crcSectorUpdate_st (sector : List Byte) : (crcSectorUpdate sector s).st = s.st := rfl
@[simp] theorem crcSectorUpdate_err (sector : List Byte) : (crcSectorUpdate sector s).err = s.err := rfl
@[simp] theorem crcSectorUpdate_missing (sector : List Byte) : (crcSectorUpdate sector s).missing = s.missing := rfl
@[simp] theorem crcSectorUpdate_acc (sector : List Byte) : (crcSectorUpdate sector s).acc = crc32Sector s.acc sector := rfl
@[simp] theorem crcSectorUpdate_bytesConsumed (sector : List Byte) : (crcSectorUpdate sector s).bytesConsumed = s.bytesConsumed := rfl
@[simp] theorem crcSectorUpdate_discFrameCounter (sector : List Byte) : (crcSectorUpdate sector s).discFrameCounter = s.discFrameCounter := rfl
@[simp] theorem crcSectorUpdate_firstValid (sector : List Byte) : (crcSectorUpdate sector s).firstValid = s.firstValid := rfl
@[simp] theorem crcSectorUpdate_firstSampleOffset (sector : List Byte) : (crcSectorUpdate sector s).firstSampleOffset = s.firstSampleOffset := rfl
@[simp] theorem crcSectorUpdate_nextSampleOffset (sector : List Byte) : (crcSectorUpdate sector s).nextSampleOffset = s.nextSampleOffset := rfl
@[simp] theorem crcSectorUpdate_fifo (sector : List Byte) : (crcSectorUpdate sector s).fifo = s.fifo := rfl
@[simp] theorem crcSectorUpdate_cmdPort (sector : List Byte) : (crcSectorUpdate sector s).cmdPort = s.cmdPort := rfl
@[simp] theorem crcSectorUpdate_answers (sector : List Byte) : (crcSectorUpdate sector s).answers = s.answers := rfl

/-! ## `latchFirst` -/

@[simp] theorem State.latchFirst_alg (offset : Word64) : (s.latchFirst offset).alg = s.alg := by
  unfold State.latchFirst; split <;> rfl
@[simp] theorem State.latchFirst_trackNumber (offset : Word64) : (s.latchFirst offset).trackNumber = s.trackNumber := by
  unfold State.latchFirst; split <;> rfl
@[simp] theorem State.latchFirst_trackCount (offset : Word64) : (s.latchFirst offset).trackCount = s.trackCount := by
  unfold State.latchFirst; split <;> rfl
@[simp] theorem State.latchFirst_frameStart (offset : Word64) : (s.latchFirst offset).frameStart = s.frameStart := by
  unfold State.latchFirst; split <;> rfl
@[simp] theorem State.latchFirst_frameLength (offset : Word64) : (s.latchFirst offset).frameLength = s.frameLength := by
  unfold State.latchFirst; split <;> rfl
@[simp] theorem State.latchFirst_frameEnd (offset : Word64) : (s.latchFirst offset).frameEnd = s.frameEnd := by
  unfold State.latchFirst; split <;> rfl
@[simp] theorem State.latchFirst_st (offset : Word64) : (s.latchFirst offset).st = s.st := by
  unfold State.latchFirst; split <;> rfl
@[simp] theorem State.latchFirst_err (offset : Word64) : (s.latchFirst offset).err = s.err := by
  unfold State.latchFirst; split <;> rfl
@[simp] theorem State.latchFirst_missing (offset : Word64) : (s.latchFirst offset).missing = s.missing := by
  unfold State.latchFirst; split <;> rfl
@[simp] theorem State.latchFirst_acc (offset : Word64) : (s.latchFirst offset).acc = s.acc := by
  unfold State.latchFirst; split <;> rfl
@[simp] theorem State.latchFirst_bytesConsumed (offset : Word64) : (s.latchFirst offset).bytesConsumed = s.bytesConsumed := by
  unfold State.latchFirst; split <;> rfl
@[simp] theorem State.latchFirst_discFrameCounter (offset : Word64) : (s.latchFirst offset).discFrameCounter = s.discFrameCounter := by
  unfold State.latchFirst; split <;> rfl
@[simp] theorem State.latchFirst_firstValid (offset : Word64) : (s.latchFirst offset).firstValid = true := by
  unfold State.latchFirst; split <;> simp_all
@[simp] theorem State.latchFirst_firstSampleOffset (offset : Word64) : (s.latchFirst offset).firstSampleOffset = if s.firstValid then s.firstSampleOffset else offset := by
  unfold State.latchFirst; split <;> rfl
@[simp] theorem State.latchFirst_nextSampleOffset (offset : Word64) : (s.latchFirst offset).nextSampleOffset = s.nextSampleOffset := by
  unfold State.latchFirst; split <;> rfl
@[simp] theorem State.latchFirst_fifo (offset : Word64) : (s.latchFirst offset).fifo = s.fifo := by
  unfold State.latchFirst; split <;> rfl
@[simp] theorem State.latchFirst_cmdPort (offset : Word64) : (s.latchFirst offset).cmdPort = s.cmdPort := by
  unfold State.latchFirst; split <;> rfl
@[simp] theorem State.latchFirst_answers (offset : Word64) : (s.latchFirst offset).answers = s.answers := by
  unfold State.latchFirst; split <;> rfl

/-! ## `countSample` -/

@[simp] theorem State.countSample_alg : (s.countSample).alg = s.alg := by
  unfold State.countSample; split <;> rfl
@[simp] theorem State.countSample_trackNumber : (s.countSample).trackNumber = s.trackNumber := by
  unfold State.countSample; split <;> rfl
@[simp] theorem State.countSample_trackCount : (s.countSample).trackCount = s.trackCount := by
  unfold State.countSample; split <;> rfl
@[simp] theorem State.countSample_frameStart : (s.countSample).frameStart = s.frameStart := by
  unfold State.countSample; split <;> rfl
@[simp] theorem State.countSample_frameLength : (s.countSample).frameLength = s.frameLength := by
  unfold State.countSample; split <;> rfl
@[simp] theorem State.countSample_frameEnd : (s.countSample).frameEnd = s.frameEnd := by
  unfold State.countSample; split <;> rfl
@[simp] theorem State.countSample_st : (s.countSample).st = s.st := by
  unfold State.countSample; split <;> rfl
@[simp] theorem State.countSample_err : (s.countSample).err = s.err := by
  unfold State.countSample; split <;> rfl
@[simp] theorem State.countSample_missing : (s.countSample).missing = s.missing := by
  unfold State.countSample; split <;> rfl
@[simp] theorem State.countSample_acc : (s.countSample).acc = s.acc := by
  unfold State.countSample; split <;> rfl
@[simp] theorem State.countSample_bytesConsumed : (s.countSample).bytesConsumed = s.bytesConsumed := by
  unfold State.countSample; split <;> rfl
@[simp] theorem State.countSample_discFrameCounter : (s.countSample).discFrameCounter = s.discFrameCounter := by
  unfold State.countSample; split <;> rfl
@[simp] theorem State.countSample_firstValid : (s.countSample).firstValid = s.firstValid := by
  unfold State.countSample; split <;> rfl
@[simp] theorem State.countSample_firstSampleOffset : (s.countSample).firstSampleOffset = s.firstSampleOffset := by
  unfold State.countSample; split <;> rfl
@[simp] theorem State.countSample_nextSampleOffset : (s.countSample).nextSampleOffset = if sampleComplete s then s.nextSampleOffset + 1#64 else s.nextSampleOffset := by
  unfold State.countSample; split <;> rfl
@[simp] theorem State.countSample_fifo : (s.countSample).fifo = s.fifo := by
  unfold State.countSample; split <;> rfl
@[simp] theorem State.countSample_cmdPort : (s.countSample).cmdPort = s.cmdPort := by
  unfold State.countSample; split <;> rfl
@[simp] theorem State.countSample_answers : (s.countSample).answers = s.answers := by
  unfold State.countSample; split <;> rfl

/-! ## `appendByte` -/

@[simp] theorem State.appendByte_alg (b : Byte) : (s.appendByte b).alg = s.alg := rfl
@[simp] theorem State.appendByte_trackNumber (b : Byte) : (s.appendByte b).trackNumber = s.trackNumber := rfl
@[simp] theorem State.appendByte_trackCount (b : Byte) : (s.appendByte b).trackCount = s.trackCount := rfl
@[simp] theorem State.appendByte_frameStart (b : Byte) : (s.appendByte b).frameStart = s.frameStart := rfl
@[simp] theorem State.appendByte_frameLength (b : Byte) : (s.appendByte b).frameLength = s.frameLength := rfl
@[simp] theorem State.appendByte_frameEnd (b : Byte) : (s.appendByte b).frameEnd = s.frameEnd := rfl
@[simp] theorem State.appendByte_st (b : Byte) : (s.appendByte b).st = s.st := rfl
@[simp] theorem State.appendByte_err (b : Byte) : (s.appendByte b).err = s.err := rfl
@[simp] theorem State.appendByte_missing (b : Byte) : (s.appendByte b).missing = s.missing := rfl
@[simp] theorem State.appendByte_acc (b : Byte) : (s.appendByte b).acc = s.acc := rfl
@[simp] theorem State.appendByte_bytesConsumed (b : Byte) : (s.appendByte b).bytesConsumed = s.bytesConsumed := rfl
@[simp] theorem State.appendByte_discFrameCounter (b : Byte) : (s.appendByte b).discFrameCounter = s.discFrameCounter := rfl
@[simp] theorem State.appendByte_firstValid (b : Byte) : (s.appendByte b).firstValid = s.firstValid := rfl
@[simp] theorem State.appendByte_firstSampleOffset (b : Byte) : (s.appendByte b).firstSampleOffset = s.firstSampleOffset := rfl
@[simp] theorem State.appendByte_nextSampleOffset (b : Byte) : (s.appendByte b).nextSampleOffset = s.nextSampleOffset := rfl
@[simp] theorem State.appendByte_fifo (b : Byte) : (s.appendByte b).fifo = s.fifo ++ [b] := rfl
@[simp] theorem State.appendByte_cmdPort (b : Byte) : (s.appendByte b).cmdPort = s.cmdPort := rfl
@[simp] theorem State.appendByte_answers (b : Byte) : (s.appendByte b).answers = s.answers := rfl

/-! ## `clearFifo` -/

@[simp] theorem State.clearFifo_alg : (s.clearFifo).alg = s.alg := rfl
@[simp] theorem State.clearFifo_trackNumber : (s.clearFifo).trackNumber = s.trackNumber := rfl
@[simp] theorem State.clearFifo_trackCount : (s.clearFifo).trackCount = s.trackCount := rfl
@[simp] theorem State.clearFifo_frameStart : (s.clearFifo).frameStart = s.frameStart := rfl
@[simp] theorem State.clearFifo_frameLength : (s.clearFifo).frameLength = s.frameLength := rfl
@[simp] theorem State.clearFifo_frameEnd : (s.clearFifo).frameEnd = s.frameEnd := rfl
@[simp] theorem State.clearFifo_st : (s.clearFifo).st = s.st := rfl
@[simp] theorem State.clearFifo_err : (s.clearFifo).err = s.err := rfl
@[simp] theorem State.clearFifo_missing : (s.clearFifo).missing = s.missing := rfl
@[simp] theorem State.clearFifo_acc : (s.clearFifo).acc = s.acc := rfl
@[simp] theorem State.clearFifo_bytesConsumed : (s.clearFifo).bytesConsumed = s.bytesConsumed := rfl
@[simp] theorem State.clearFifo_discFrameCounter : (s.clearFifo).discFrameCounter = s.discFrameCounter := rfl
@[simp] theorem State.clearFifo_firstValid : (s.clearFifo).firstValid = s.firstValid := rfl
@[simp] theorem State.clearFifo_firstSampleOffset : (s.clearFifo).firstSampleOffset = s.firstSampleOffset := rfl
@[simp] theorem State.clearFifo_nextSampleOffset : (s.clearFifo).nextSampleOffset = s.nextSampleOffset := rfl
@[simp] theorem State.clearFifo_fifo : (s.clearFifo).fifo = [] := rfl
@[simp] theorem State.clearFifo_cmdPort : (s.clearFifo).cmdPort = s.cmdPort := rfl
@[simp] theorem State.clearFifo_answers : (s.clearFifo).answers = s.answers := rfl

/-! ## The sector update: only `acc` and `discFrameCounter` change -/

@[simp] theorem arAccumulate_alg (n : Nat) (sector : List Byte) :
    (arAccumulate n sector s).alg = s.alg := by
  unfold arAccumulate; split_ifs <;> rfl
@[simp] theorem arAccumulate_trackNumber (n : Nat) (sector : List Byte) :
    (arAccumulate n sector s).trackNumber = s.trackNumber := by
  unfold arAccumulate; split_ifs <;> rfl
@[simp] theorem arAccumulate_trackCount (n : Nat) (sector : List Byte) :
    (arAccumulate n sector s).trackCount = s.trackCount := by
  unfold arAccumulate; split_ifs <;> rfl
@[simp] theorem arAccumulate_frameStart (n : Nat) (sector : List Byte) :
    (arAccumulate n sector s).frameStart = s.frameStart := by
  unfold arAccumulate; split_ifs <;> rfl
@[simp] theorem arAccumulate_frameLength (n : Nat) (sector : List Byte) :
    (arAccumulate n sector s).frameLength = s.frameLength := by
  unfold arAccumulate; split_ifs <;> rfl
@[simp] theorem arAccumulate_frameEnd (n : Nat) (sector : List Byte) :
    (arAccumulate n sector s).frameEnd = s.frameEnd := by
  unfold arAccumulate; split_ifs <;> rfl
@[simp] theorem arAccumulate_st (n : Nat) (sector : List Byte) :
    (arAccumulate n sector s).st = s.st := by
  unfold arAccumulate; split_ifs <;> rfl
@[simp] theorem arAccumulate_err (n : Nat) (sector : List Byte) :
    (arAccumulate n sector s).err = s.err := by
  unfold arAccumulate; split_ifs <;> rfl
@[simp] theorem arAccumulate_missing (n : Nat) (sector : List Byte) :
    (arAccumulate n sector s).missing = s.missing := by
  unfold arAccumulate; split_ifs <;> rfl
@[simp] theorem arAccumulate_bytesConsumed (n : Nat) (sector : List Byte) :
    (arAccumulate n sector s).bytesConsumed = s.bytesConsumed := by
  unfold arAccumulate; split_ifs <;> rfl
@[simp] theorem arAccumulate_discFrameCounter (n : Nat) (sector : List Byte) :
    (arAccumulate n sector s).discFrameCounter = s.discFrameCounter := by
  unfold arAccumulate; split_ifs <;> rfl
@[simp] theorem arAccumulate_firstValid (n : Nat) (sector : List Byte) :
    (arAccumulate n sector s).firstValid = s.firstValid := by
  unfold arAccumulate; split_ifs <;> rfl
@[simp] theorem arAccumulate_firstSampleOffset (n : Nat) (sector : List Byte) :
    (arAccumulate n sector s).firstSampleOffset = s.firstSampleOffset := by
  unfold arAccumulate; split_ifs <;> rfl
@[simp] theorem arAccumulate_nextSampleOffset (n : Nat) (sector : List Byte) :
    (arAccumulate n sector s).nextSampleOffset = s.nextSampleOffset := by
  unfold arAccumulate; split_ifs <;> rfl
@[simp] theorem arAccumulate_fifo (n : Nat) (sector : List Byte) :
    (arAccumulate n sector s).fifo = s.fifo := by
  unfold arAccumulate; split_ifs <;> rfl
@[simp] theorem arAccumulate_cmdPort (n : Nat) (sector : List Byte) :
    (arAccumulate n sector s).cmdPort = s.cmdPort := by
  unfold arAccumulate; split_ifs <;> rfl
@[simp] theorem arAccumulate_answers (n : Nat) (sector : List Byte) :
    (arAccumulate n sector s).answers = s.answers := by
  unfold arAccumulate; split_ifs <;> rfl

@[simp] theorem arSector_alg (sector : List Byte) : (arSector sector s).alg = s.alg := by
  simp [arSector]
@[simp] theorem arSector_trackNumber (sector : List Byte) : (arSector sector s).trackNumber = s.trackNumber := by
  simp [arSector]
@[simp] theorem arSector_trackCount (sector : List Byte) : (arSector sector s).trackCount = s.trackCount := by
  simp [arSector]
@[simp] theorem arSector_frameStart (sector : List Byte) : (arSector sector s).frameStart = s.frameStart := by
  simp [arSector]
@[simp] theorem arSector_frameLength (sector : List Byte) : (arSector sector s).frameLength = s.frameLength := by
  simp [arSector]
@[simp] theorem arSector_frameEnd (sector : List Byte) : (arSector sector s).frameEnd = s.frameEnd := by
  simp [arSector]
@[simp] theorem arSector_st (sector : List Byte) : (arSector sector s).st = s.st := by
  simp [arSector]
@[simp] theorem arSector_err (sector : List Byte) : (arSector sector s).err = s.err := by
  simp [arSector]
@[simp] theorem arSector_missing (sector : List Byte) : (arSector sector s).missing = s.missing := by
  simp [arSector]
@[simp] theorem arSector_bytesConsumed (sector : List Byte) : (arSector sector s).bytesConsumed = s.bytesConsumed := by
  simp [arSector]
@[simp] theorem arSector_discFrameCounter (sector : List Byte) : (arSector sector s).discFrameCounter = s.discFrameCounter + 1#64 := by
  simp [arSector]
@[simp] theorem arSector_firstValid (sector : List Byte) : (arSector sector s).firstValid = s.firstValid := by
  simp [arSector]
@[simp] theorem arSector_firstSampleOffset (sector : List Byte) : (arSector sector s).firstSampleOffset = s.firstSampleOffset := by
  simp [arSector]
@[simp] theorem arSector_nextSampleOffset (sector : List Byte) : (arSector sector s).nextSampleOffset = s.nextSampleOffset := by
  simp [arSector]
@[simp] theorem arSector_fifo (sector : List Byte) : (arSector sector s).fifo = s.fifo := by
  simp [arSector]
@[simp] theorem arSector_cmdPort (sector : List Byte) : (arSector sector s).cmdPort = s.cmdPort := by
  simp [arSector]
@[simp] theorem arSector_answers (sector : List Byte) : (arSector sector s).answers = s.answers := by
  simp [arSector]

@[simp] theorem updateSector_alg (sector : List Byte) :
    (updateSector sector s).alg = s.alg := by
  unfold updateSector; split <;> simp
@[simp] theorem updateSector_trackNumber (sector : List Byte) :
    (updateSector sector s).trackNumber = s.trackNumber := by
  unfold updateSector; split <;> simp
@[simp] theorem updateSector_trackCount (sector : List Byte) :
    (updateSector sector s).trackCount = s.trackCount := by
  unfold updateSector; split <;> simp
@[simp] theorem updateSector_frameStart (sector : List Byte) :
    (updateSector sector s).frameStart = s.frameStart := by
  unfold updateSector; split <;> simp
@[simp] theorem updateSector_frameLength (sector : List Byte) :
    (updateSector sector s).frameLength = s.frameLength := by
  unfold updateSector; split <;> simp
@[simp] theorem updateSector_frameEnd (sector : List Byte) :
    (updateSector sector s).frameEnd = s.frameEnd := by
  unfold updateSector; split <;> simp
@[simp] theorem updateSector_st (sector : List Byte) :
    (updateSector sector s).st = s.st := by
  unfold updateSector; split <;> simp
@[simp] theorem updateSector_err (sector : List Byte) :
    (updateSector sector s).err = s.err := by
  unfold updateSector; split <;> simp
@[simp] theorem updateSector_missing (sector : List Byte) :
    (updateSector sector s).missing = s.missing := by
  unfold updateSector; split <;> simp
@[simp] theorem updateSector_bytesConsumed (sector : List Byte) :
    (updateSector sector s).bytesConsumed = s.bytesConsumed := by
  unfold updateSector; split <;> simp
@[simp] theorem updateSector_discFrameCounter (sector : List Byte) :
    (updateSector sector s).discFrameCounter = match s.alg with
      | .crc32 => s.discFrameCounter
      | .accurateRip => s.discFrameCounter + 1#64 := by
  unfold updateSector; cases s.alg <;> simp
@[simp] theorem updateSector_firstValid (sector : List Byte) :
    (updateSector sector s).firstValid = s.firstValid := by
  unfold updateSector; split <;> simp
@[simp] theorem updateSector_firstSampleOffset (sector : List Byte) :
    (updateSector sector s).firstSampleOffset = s.firstSampleOffset := by
  unfold updateSector; split <;> simp
@[simp] theorem updateSector_nextSampleOffset (sector : List Byte) :
    (updateSector sector s).nextSampleOffset = s.nextSampleOffset := by
  unfold updateSector; split <;> simp
@[simp] theorem updateSector_fifo (sector : List Byte) :
    (updateSector sector s).fifo = s.fifo := by
  unfold updateSector; split <;> simp
@[simp] theorem updateSector_cmdPort (sector : List Byte) :
    (updateSector sector s).cmdPort = s.cmdPort := by
  unfold updateSector; split <;> simp
@[simp] theorem updateSector_answers (sector : List Byte) :
    (updateSector sector s).answers = s.answers := by
  unfold updateSector; split <;> simp

/-! ## The drain -/

@[simp] theorem drainSector_alg :
    (drainSector s).alg = s.alg := by
  simp [drainSector, fifoPopSector]
@[simp] theorem drainSector_trackNumber :
    (drainSector s).trackNumber = s.trackNumber := by
  simp [drainSector, fifoPopSector]
@[simp] theorem drainSector_trackCount :
    (drainSector s).trackCount = s.trackCount := by
  simp [drainSector, fifoPopSector]
@[simp] theorem drainSector_frameStart :
    (drainSector s).frameStart = s.frameStart := by
  simp [drainSector, fifoPopSector]
@[simp] theorem drainSector_frameLength :
    (drainSector s).frameLength = s.frameLength := by
  simp [drainSector, fifoPopSector]
@[simp] theorem drainSector_frameEnd :
    (drainSector s).frameEnd = s.frameEnd := by
  simp [drainSector, fifoPopSector]
@[simp] theorem drainSector_st :
    (drainSector s).st = s.st := by
  simp [drainSector, fifoPopSector]
@[simp] theorem drainSector_err :
    (drainSector s).err = s.err := by
  simp [drainSector, fifoPopSector]
@[simp] theorem drainSector_missing :
    (drainSector s).missing = s.missing := by
  simp [drainSector, fifoPopSector]
@[simp] theorem drainSector_bytesConsumed :
    (drainSector s).bytesConsumed = s.bytesConsumed + 2352#64 := by
  simp [drainSector, fifoPopSector]
@[simp] theorem drainSector_discFrameCounter :
    (drainSector s).discFrameCounter = match s.alg with
      | .crc32 => s.discFrameCounter
      | .accurateRip => s.discFrameCounter + 1#64 := by
  simp [drainSector, fifoPopSector]
@[simp] theorem drainSector_firstValid :
    (drainSector s).firstValid = s.firstValid := by
  simp [drainSector, fifoPopSector]
@[simp] theorem drainSector_firstSampleOffset :
    (drainSector s).firstSampleOffset = s.firstSampleOffset := by
  simp [drainSector, fifoPopSector]
@[simp] theorem drainSector_nextSampleOffset :
    (drainSector s).nextSampleOffset = s.nextSampleOffset := by
  simp [drainSector, fifoPopSector]
@[simp] theorem drainSector_fifo :
    (drainSector s).fifo = [] := by
  simp [drainSector, fifoPopSector]
@[simp] theorem drainSector_cmdPort :
    (drainSector s).cmdPort = s.cmdPort := by
  simp [drainSector, fifoPopSector]
@[simp] theorem drainSector_answers :
    (drainSector s).answers = s.answers := by
  simp [drainSector, fifoPopSector]

/-! ## Computed conditions under updates -/

@[simp] theorem appendByte_level (b : Byte) : (s.appendByte b).level = s.level + 1 := by
  simp [State.level]
@[simp] theorem countSample_level : s.countSample.level = s.level := by simp [State.level]
@[simp] theorem drainSector_level : (drainSector s).level = 0 := by simp [State.level]
@[simp] theorem respond_level (r : Response) (evs : List Event) : (s.respond r evs).level = s.level := rfl

end Sys2Proof.Machine
end

