-- ==== Sys2Proof/Laws/Ops.lean ====
section
/-! SUPPORT. One lemma per shared operation: everything it can do, so that no later proof unfolds it. -/

namespace Sys2Proof.Machine

variable {s t : State}

/-! ## Values -/

/-- `signed_64` is the two's-complement reading of a bit vector. -/
theorem signed64_eq_toInt (v : Word64) : signed64 v = v.toInt := by
  have := v.isLt
  unfold signed64
  rw [BitVec.toInt_eq_toNat_cond]
  split <;> split <;> omega

/-- The resolved end of the range, as 64-bit arithmetic. -/
theorem resolve_end (s : State) :
    BitVec.ofInt 64 (s.frameStart.toNat + signed64 s.frameLength - 1) =
      s.frameStart + s.frameLength - 1#64 := by
  rw [signed64_eq_toInt]
  apply BitVec.eq_of_toInt_eq
  have h1 : s.frameStart.toInt = (s.frameStart.toNat : Int).bmod (2 ^ 64) := BitVec.toInt_eq_toNat_bmod _
  simp only [BitVec.toInt_ofInt, BitVec.toInt_sub, BitVec.toInt_add, h1]
  simp

/-! ## Results -/

@[simp] theorem accept_eq (evs : List Event) : accept evs s = .next (s.respond (.ok 0#64) evs) := rfl
@[simp] theorem reject_eq (r : Reason) : reject r s = .next (s.respond (.rejected r) []) := rfl

theorem whenLegal_of_legal {op : Opcode} (h : legalIn op s.st = true) (run : Result) :
    whenLegal op s run = run := by simp [whenLegal, h]

theorem whenLegal_of_illegal {op : Opcode} (h : legalIn op s.st = false) (run : Result) :
    whenLegal op s run = .next (s.respond (.rejected .state) []) := by simp [whenLegal, h]

/-- A checked command is rejected for its state and changes nothing, or it runs. -/
theorem whenLegal_next {op : Opcode} {run : Result} (h : whenLegal op s run = .next t) :
    (legalIn op s.st = false ∧ t = s.respond (.rejected .state) []) ∨
    (legalIn op s.st = true ∧ run = .next t) := by
  cases hl : legalIn op s.st
  · rw [whenLegal_of_illegal hl] at h
    cases h
    exact .inl ⟨rfl, rfl⟩
  · rw [whenLegal_of_legal hl] at h
    exact .inr ⟨rfl, h⟩

@[simp] theorem nextOf_next (s : State) : nextOf (.next s) = some s := rfl

/-! ## The command port -/

@[simp] theorem withPort_withPort (p q : List CmdWord) : (s.withPort p).withPort q = s.withPort q := rfl

theorem acceptWord_nil (h : s.cmdPort = []) : acceptWord s = none := by simp [acceptWord, h]

theorem acceptWord_cons {w : CmdWord} {rest : List CmdWord} (h : s.cmdPort = w :: rest) :
    acceptWord s = some (w, s.withPort rest) := by simp [acceptWord, h]

/-! ## The FIFO keeps its form (10_state.md R41 (a)) -/

theorem fifoPush_of_lt (b : Byte) (h : s.level < 2352) : fifoPush b s = some (s.appendByte b) := by
  simp [fifoPush, h]

theorem fifoPush_of_ge (b : Byte) (h : 2352 ≤ s.level) : fifoPush b s = none := by
  simp [fifoPush, h]

/-- What `FifoPush` answers, whenever it answers. -/
theorem fifoPush_some {b : Byte} (h : fifoPush b s = some t) : s.level < 2352 ∧ t = s.appendByte b := by
  unfold fifoPush at h
  split at h
  · exact ⟨‹_›, (Option.some.inj h).symm⟩
  · cases h

@[simp] theorem fifoPopSector_fst : (fifoPopSector s).1 = s.fifo := rfl
@[simp] theorem fifoPopSector_snd : (fifoPopSector s).2 = s.clearFifo := rfl

theorem fifoWf_iff : s.fifoWf = true ↔ s.level < 2352 := by simp [State.fifoWf]

theorem reset_fifoWf : State.reset.fifoWf = true := by decide

/-- A drain leaves an empty FIFO, whatever it drained. -/
theorem drainSector_fifoWf (s : State) : (drainSector s).fifoWf = true := by
  simp [fifoWf_iff, State.level]

/-- A byte that does not complete a sector leaves the FIFO in its form. -/
theorem appendByte_fifoWf (b : Byte) (h : s.level < 2351) : (s.appendByte b).fifoWf = true := by
  simp only [fifoWf_iff, appendByte_level]
  omega

@[simp] theorem sectorComplete_iff : sectorComplete s = true ↔ s.level = 2352 := by simp [sectorComplete]

@[simp] theorem sampleComplete_iff : sampleComplete s = true ↔ s.level % 4 = 0 := by
  simp [sampleComplete, samplePhase]

/-! ## Task errors -/

/-- Raising a fatal error: `ERR`, `ST` and the event, under an `OK` response. -/
theorem raiseFatal_eq {e : TaskError} (h : e.fatal = true) (before : List Event) :
    raiseFatal e before s =
      .next ({ s with err := some e, st := .failed }.respond (.ok 0#64) (before ++ [Event.error e 0#64])) := by
  cases e <;> first | rfl | cases h

end Sys2Proof.Machine
end

