-- ==== Sys2Proof/Laws/Exec.lean ====
section
/-! SUPPORT. What each meaning can do, said once: if it answers a next state, that state is one of these.
`execX_next` is the inversion of one meaning; `exec_next`, `exec_total` and `step_next` say what holds of all. -/

namespace Sys2Proof.Machine

variable {s t : State}

/-- The next state of a rejection. -/
abbrev rejectedState (r : Reason) (s : State) : State := s.respond (.rejected r) []

/-- The next state of an executed command that emits these events. -/
abbrev okState (events : List Event) (s : State) : State := s.respond (.ok 0#64) events

theorem execSetalg_next {alg : Algorithm} (h : execSetalg alg s = .next t) :
    t = rejectedState .state s ∨ (s.st = .created ∧ t = okState [] { s with alg := alg }) := by
  obtain ⟨_, rfl⟩ | ⟨hl, h⟩ := whenLegal_next h
  · exact .inl rfl
  · exact .inr ⟨by simpa [legalIn] using hl, by cases h; rfl⟩

theorem execSettrk_next {n c : Byte} (h : execSettrk n c s = .next t) :
    t = rejectedState .state s ∨
      (s.st = .created ∧ t = okState [] { s with trackNumber := n, trackCount := c }) := by
  obtain ⟨_, rfl⟩ | ⟨hl, h⟩ := whenLegal_next h
  · exact .inl rfl
  · exact .inr ⟨by simpa [legalIn] using hl, by cases h; rfl⟩

theorem execSetstart_next {x : Word64} (h : execSetstart x s = .next t) :
    t = rejectedState .state s ∨ (s.st = .created ∧ t = okState [] { s with frameStart := x }) := by
  obtain ⟨_, rfl⟩ | ⟨hl, h⟩ := whenLegal_next h
  · exact .inl rfl
  · exact .inr ⟨by simpa [legalIn] using hl, by cases h; rfl⟩

theorem execSetlen_next {x : Word64} (h : execSetlen x s = .next t) :
    t = rejectedState .state s ∨ (s.st = .created ∧ t = okState [] { s with frameLength := x }) := by
  obtain ⟨_, rfl⟩ | ⟨hl, h⟩ := whenLegal_next h
  · exact .inl rfl
  · exact .inr ⟨by simpa [legalIn] using hl, by cases h; rfl⟩

theorem execNotfound_next (h : execNotfound s = .next t) :
    t = rejectedState .state s ∨
      (s.st = .created ∧ t = okState [.error .notFound 0#64] { s with err := some .notFound, st := .failed }) := by
  obtain ⟨_, rfl⟩ | ⟨hl, h⟩ := whenLegal_next h
  · exact .inl rfl
  · exact .inr ⟨by simpa [legalIn] using hl, by cases h; rfl⟩

theorem execStart_next (h : execStart s = .next t) :
    t = rejectedState .state s ∨
    (s.st = .created ∧ signed64 s.frameLength < 0 ∧ t = okState [.queryLen] { s with st := .started }) ∨
    (s.st = .created ∧ 0 ≤ signed64 s.frameLength ∧ t = okState [seekEvent s] s.resolve) := by
  obtain ⟨_, rfl⟩ | ⟨hl, h⟩ := whenLegal_next h
  · exact .inl rfl
  · have hs : s.st = .created := by simpa [legalIn] using hl
    split at h <;> rename_i hu <;> cases h
    · exact .inr (.inl ⟨hs, by simpa [lengthUnknown] using hu, rfl⟩)
    · exact .inr (.inr ⟨hs, by simpa [lengthUnknown] using hu, rfl⟩)

/-- When `DURATION` resolves a length, the length is not negative. -/
theorem durationLength_some {total n : Word64} (h : durationLength total s = some n) :
    s.frameStart.toNat ≤ total.toNat ∧ total.toNat - s.frameStart.toNat ≤ 2 ^ 63 - 1 ∧
    n = total - s.frameStart ∧ n.toNat = total.toNat - s.frameStart.toNat ∧ 0 ≤ signed64 n := by
  unfold durationLength at h
  split at h
  · cases h
  · rename_i hc
    cases h
    simp only [Config.maxLength, not_or, not_lt] at hc
    obtain ⟨h1, h2⟩ := hc
    have hn : (total - s.frameStart).toNat = total.toNat - s.frameStart.toNat :=
      BitVec.toNat_sub_of_le (by simpa [BitVec.le_def] using h1)
    refine ⟨h1, h2, rfl, hn, ?_⟩
    unfold signed64
    rw [hn]
    split <;> omega

theorem execDuration_next {total : Word64} (h : execDuration total s = .next t) :
    t = rejectedState .state s ∨
    (s.st = .started ∧ durationLength total s = none ∧ t = rejectedState .operand s) ∨
    (s.st = .started ∧ ∃ n, durationLength total s = some n ∧
      t = okState [seekEvent { s with frameLength := n }] (State.resolve { s with frameLength := n })) := by
  obtain ⟨_, rfl⟩ | ⟨hl, h⟩ := whenLegal_next h
  · exact .inl rfl
  · have hs : s.st = .started := by simpa [legalIn] using hl
    split at h <;> rename_i hd <;> cases h
    · exact .inr (.inl ⟨hs, hd, rfl⟩)
    · exact .inr (.inr ⟨hs, _, hd, rfl⟩)

theorem execCancel_next (h : execCancel s = .next t) :
    t = rejectedState .state s ∨
    ((s.st = .created ∨ s.st = .started ∨ s.st = .running) ∧
      t = okState (stopEvents s ++ [.error .cancelled 0#64]) { s with err := some .cancelled, st := .failed }) := by
  obtain ⟨_, rfl⟩ | ⟨hl, h⟩ := whenLegal_next h
  · exact .inl rfl
  · refine .inr ⟨?_, by cases h; rfl⟩
    simp only [legalIn, Bool.or_eq_true, beq_iff_eq] at hl
    tauto

theorem execChunk_next {offset : Word64} (h : execChunk offset s = .next t) :
    t = rejectedState .state s ∨
    (s.st = .running ∧ t = okState [] { s.latchFirst offset with nextSampleOffset := offset }) := by
  obtain ⟨_, rfl⟩ | ⟨hl, h⟩ := whenLegal_next h
  · exact .inl rfl
  · exact .inr ⟨by simpa [legalIn] using hl, by cases h; rfl⟩

/-- The state a byte below a sector leaves, before its response. -/
abbrev pushed (b : Byte) (s : State) : State := (s.appendByte b).countSample

/-- `BYTE` below a sector. -/
theorem execByte_below (b : Byte) (hs : s.st = .running) (hv : s.firstValid = true) (hl : s.level < 2351) :
    execByte b s = .next (okState [] (pushed b s)) := by
  have hlt : s.level < 2352 := by omega
  have hne : ¬ s.level + 1 = 2352 := by omega
  simp [execByte, whenLegal_of_legal, legalIn, hs, hv, fifoPush_of_lt b hlt, afterPush, hne]

/-- `BYTE` completing a sector. -/
theorem execByte_complete (b : Byte) (hs : s.st = .running) (hv : s.firstValid = true) (hl : s.level = 2351) :
    execByte b s =
      .next (okState [progressEvent (drainSector (pushed b s))] (drainSector (pushed b s))) := by
  have hlt : s.level < 2352 := by omega
  have heq : s.level + 1 = 2352 := by omega
  simp [execByte, whenLegal_of_legal, legalIn, hs, hv, fifoPush_of_lt b hlt, afterPush, heq]

/-- `BYTE` before any chunk. -/
theorem execByte_early (b : Byte) (hv : s.firstValid = false) : execByte b s = .next (rejectedState .state s) := by
  cases hl : legalIn .byte s.st
  · exact whenLegal_of_illegal hl _
  · simp [execByte, whenLegal_of_legal hl, hv]

/-- `BYTE` beyond the capacity. -/
theorem execByte_beyond (b : Byte) (hs : s.st = .running) (hv : s.firstValid = true) (hl : 2352 ≤ s.level) :
    execByte b s = .fault .fifoOverflow := by
  simp [execByte, whenLegal_of_legal, legalIn, hs, hv, fifoPush_of_ge b hl]

theorem execByte_next {b : Byte} (h : execByte b s = .next t) :
    t = rejectedState .state s ∨
    (s.st = .running ∧ s.firstValid = true ∧ s.level < 2351 ∧ t = okState [] (pushed b s)) ∨
    (s.st = .running ∧ s.firstValid = true ∧ s.level = 2351 ∧
      t = okState [progressEvent (drainSector (pushed b s))] (drainSector (pushed b s))) := by
  obtain ⟨_, rfl⟩ | ⟨hl, -⟩ := whenLegal_next h
  · exact .inl rfl
  have hs : s.st = .running := by simpa [legalIn] using hl
  cases hv : s.firstValid
  · rw [execByte_early b hv] at h; cases h; exact .inl rfl
  rcases lt_trichotomy s.level 2351 with hlt | heq | hgt
  · rw [execByte_below b hs hv hlt] at h; cases h; exact .inr (.inl ⟨hs, rfl, hlt, rfl⟩)
  · rw [execByte_complete b hs hv heq] at h; cases h; exact .inr (.inr ⟨hs, rfl, heq, rfl⟩)
  · rw [execByte_beyond b hs hv hgt] at h; cases h

theorem execEos_next (h : execEos s = .next t) :
    t = rejectedState .state s ∨
    (s.st = .running ∧ s.firstValid = false ∧
      t = okState [.error .noData 0#64] { s with err := some .noData, st := .failed }) ∨
    (s.st = .running ∧ s.firstValid = true ∧ s.level % 4 ≠ 0 ∧
      t = okState [.error .alignment 0#64] { s with err := some .alignment, st := .failed }) ∨
    (s.st = .running ∧ s.firstValid = true ∧ s.level % 4 = 0 ∧ lastOffset s ≠ s.frameEnd ∧
      t = okState [.error .truncatedRange (missingSamples s), .done s.acc]
        { s with err := some .truncatedRange, missing := missingSamples s, st := .stopped }) ∨
    (s.st = .running ∧ s.firstValid = true ∧ s.level % 4 = 0 ∧ lastOffset s = s.frameEnd ∧
      t = okState [.done s.acc] { s with st := .stopped }) := by
  obtain ⟨_, rfl⟩ | ⟨hl, h⟩ := whenLegal_next h
  · exact .inl rfl
  have hs : s.st = .running := by simpa [legalIn] using hl
  cases hv : s.firstValid
  · simp only [hv, Bool.not_false, if_true, raiseFatal_eq (e := .noData) rfl] at h
    cases h
    exact .inr (.inl ⟨hs, rfl, rfl⟩)
  by_cases hp : s.level % 4 = 0
  · have hsc : sampleComplete s = true := sampleComplete_iff.mpr hp
    by_cases hr : lastOffset s = s.frameEnd
    · simp [hv, hsc, finalize, rangeTruncated, hr] at h
      exact .inr (.inr (.inr (.inr ⟨hs, rfl, hp, hr, h.symm⟩)))
    · simp [hv, hsc, finalize, rangeTruncated, hr] at h
      exact .inr (.inr (.inr (.inl ⟨hs, rfl, hp, hr, h.symm⟩)))
  · have hsc : sampleComplete s = false := by
      rw [← Bool.not_eq_true, sampleComplete_iff]; exact hp
    simp only [hv, hsc, Bool.not_true, Bool.not_false, if_true, Bool.false_eq_true, if_false,
      raiseFatal_eq (e := .alignment) rfl] at h
    cases h
    exact .inr (.inr (.inl ⟨hs, rfl, hp, rfl⟩))

/-- `RD` always answers, and writes nothing. -/
@[simp] theorem execRd_eq (reg : Byte) : execRd reg s = .next (s.respond (rdResponse reg s) []) :=
  whenLegal_of_legal (op := .rd) rfl _

/-! ## All commands -/

/-- Outside its states a command is rejected, and nothing else happens. -/
theorem exec_illegal {i : Instr} (h : legalIn i.opcode s.st = false) :
    exec i s = .next (rejectedState .state s) := by
  cases i <;> exact whenLegal_of_illegal h _

/-- Whatever a command does, it gives one answer and leaves the command port. -/
theorem exec_next {i : Instr} (h : exec i s = .next t) :
    (∃ a, t.answers = s.answers ++ [a]) ∧ t.cmdPort = s.cmdPort := by
  cases i
  case setalg => obtain rfl | ⟨_, rfl⟩ := execSetalg_next h <;> exact ⟨⟨_, rfl⟩, rfl⟩
  case settrk => obtain rfl | ⟨_, rfl⟩ := execSettrk_next h <;> exact ⟨⟨_, rfl⟩, rfl⟩
  case setstart => obtain rfl | ⟨_, rfl⟩ := execSetstart_next h <;> exact ⟨⟨_, rfl⟩, rfl⟩
  case setlen => obtain rfl | ⟨_, rfl⟩ := execSetlen_next h <;> exact ⟨⟨_, rfl⟩, rfl⟩
  case notfound => obtain rfl | ⟨_, rfl⟩ := execNotfound_next h <;> exact ⟨⟨_, rfl⟩, rfl⟩
  case start =>
    obtain rfl | ⟨_, _, rfl⟩ | ⟨_, _, rfl⟩ := execStart_next h <;> exact ⟨⟨_, rfl⟩, rfl⟩
  case duration =>
    obtain rfl | ⟨_, _, rfl⟩ | ⟨_, _, _, rfl⟩ := execDuration_next h <;> exact ⟨⟨_, rfl⟩, rfl⟩
  case cancel => obtain rfl | ⟨_, rfl⟩ := execCancel_next h <;> exact ⟨⟨_, rfl⟩, rfl⟩
  case chunk => obtain rfl | ⟨_, rfl⟩ := execChunk_next h <;> simp
  case byte =>
    obtain rfl | ⟨_, _, _, rfl⟩ | ⟨_, _, _, rfl⟩ := execByte_next h <;> simp
  case eos =>
    obtain rfl | ⟨_, _, rfl⟩ | ⟨_, _, _, rfl⟩ | ⟨_, _, _, _, rfl⟩ | ⟨_, _, _, _, rfl⟩ := execEos_next h <;>
      exact ⟨⟨_, rfl⟩, rfl⟩
  case rd => simp only [exec, execRd_eq] at h; cases h; exact ⟨⟨_, rfl⟩, rfl⟩

/-- With the FIFO in its form every command answers. -/
theorem exec_total (i : Instr) (hl : s.level < 2352) : ∃ t, exec i s = .next t := by
  cases hg : legalIn i.opcode s.st
  · exact ⟨_, exec_illegal hg⟩
  cases i
  case byte b =>
    have hs : s.st = .running := by simpa [legalIn, Instr.opcode] using hg
    cases hv : s.firstValid
    · exact ⟨_, execByte_early b hv⟩
    rcases lt_or_eq_of_le (Nat.le_of_lt_succ hl) with h | h
    · exact ⟨_, execByte_below b hs hv h⟩
    · exact ⟨_, execByte_complete b hs hv h⟩
  case rd reg => exact ⟨_, execRd_eq reg⟩
  case start =>
    change legalIn .start s.st = true at hg
    simp only [exec, execStart, whenLegal_of_legal hg]
    split <;> exact ⟨_, rfl⟩
  case duration total =>
    change legalIn .duration s.st = true at hg
    simp only [exec, execDuration, whenLegal_of_legal hg]
    split <;> exact ⟨_, rfl⟩
  case eos =>
    change legalIn .eos s.st = true at hg
    simp only [exec, execEos, whenLegal_of_legal hg, finalize, raiseFatal]
    split_ifs <;> exact ⟨_, rfl⟩
  all_goals exact ⟨_, whenLegal_of_legal hg _⟩

/-! ## One step -/

/-- A step with a command on the port is that command. -/
theorem step_instr {w : CmdWord} {rest : List CmdWord} {i : Instr} (hp : s.cmdPort = w :: rest)
    (hd : decode w = .instr i) : step s = exec i (s.withPort rest) := by
  simp [step, acceptWord_cons hp, hd]

/-- What a step can do: idle; the command on the port; or a rejection of a word that is none. -/
theorem step_next (h : step s = .next t) :
    (s.cmdPort = [] ∧ t = s) ∨
    ∃ w rest, s.cmdPort = w :: rest ∧
      ((∃ i, decode w = .instr i ∧ exec i (s.withPort rest) = .next t) ∨
       ((∀ i, decode w ≠ .instr i) ∧ ∃ r, t = rejectedState r (s.withPort rest))) := by
  cases hp : s.cmdPort with
  | nil => simp [step, acceptWord_nil hp] at h; exact .inl ⟨rfl, h.symm⟩
  | cons w rest =>
    refine .inr ⟨w, rest, rfl, ?_⟩
    simp only [step, acceptWord_cons hp] at h
    cases hd : decode w with
    | instr i => simp only [hd] at h; exact .inl ⟨i, rfl, h⟩
    | reservedOpcode c =>
      simp only [hd] at h
      cases h
      exact .inr ⟨fun _ => by simp, _, rfl⟩
    | reservedBits op x =>
      simp only [hd, rejectReservedBits] at h
      refine .inr ⟨fun _ => by simp, ?_⟩
      obtain ⟨_, rfl⟩ | ⟨_, h⟩ := whenLegal_next h
      · exact ⟨_, rfl⟩
      · cases h; exact ⟨_, rfl⟩

end Sys2Proof.Machine
end

