-- ==== Sys2Proof/Laws/PerInstr.lean ====
section
/-! SUPPORT. Statements made per instruction. Family `TableRow`: the word of a command matches its own row of
spec/opcode_table.json. -/

namespace Sys2Proof.Laws.TableRow

/-- The command's word under the row's mask is the row's match value. -/
def Statement (i : Instr) : Prop := encode i &&& i.opcode.tableMask = i.opcode.tableMatch

/-- Masking a word masks its two fields. -/
theorem cmdWord_and (c d : Byte) (x y : Word64) :
    cmdWord c x &&& cmdWord d y = cmdWord (c &&& d) (x &&& y) := by
  apply BitVec.eq_of_getLsbD_eq
  intro i hi
  simp only [cmdWord, BitVec.getLsbD_and, BitVec.getLsbD_append]
  split <;> rfl

/-- An opcode is the whole of its byte. -/
theorem code_and_ff (op : Opcode) : op.code &&& 0xFF#8 = op.code := by cases op <;> decide

/-- A command matches its row when its operand keeps the reserved bits zero. -/
theorem of_operand (i : Instr) (h : i.operand &&& i.opcode.reservedMask = 0#64) : Statement i := by
  unfold Statement encode Opcode.tableMask Opcode.tableMatch
  rw [cmdWord_and, h, code_and_ff]

/-- A zero-extended value keeps clear of a mask that is zero below its width. -/
theorem narrow_operand (w : Nat) (v : BitVec w) (mask : Word64)
    (h : ∀ i, i < w → mask.getLsbD i = false) : (v.setWidth 64 : Word64) &&& mask = 0#64 := by
  apply BitVec.eq_of_getLsbD_eq
  intro i hi
  rw [BitVec.getLsbD_and, BitVec.getLsbD_zero, Bool.and_eq_false_iff]
  by_cases hw : i < w
  · exact .inr (h i hw)
  · left
    rw [BitVec.getLsbD_setWidth, BitVec.getLsbD_of_ge _ _ (by omega), Bool.and_false]

theorem setalg (alg : Algorithm) : Statement (.setalg alg) := of_operand _ (by cases alg <;> rfl)

theorem settrk (number count : Byte) : Statement (.settrk number count) :=
  of_operand _ (narrow_operand 16 (count ++ number) 0xFFFFFFFFFFFF0000#64 (by decide))

theorem setstart (x : Word64) : Statement (.setstart x) := of_operand _ (by simp [Instr.opcode, Opcode.reservedMask])

theorem setlen (x : Word64) : Statement (.setlen x) := of_operand _ (by simp [Instr.opcode, Opcode.reservedMask])

theorem notfound : Statement .notfound := of_operand _ rfl

theorem start : Statement .start := of_operand _ rfl

theorem duration (x : Word64) : Statement (.duration x) := of_operand _ (by simp [Instr.opcode, Opcode.reservedMask])

theorem cancel : Statement .cancel := of_operand _ rfl

theorem chunk (x : Word64) : Statement (.chunk x) := of_operand _ (by simp [Instr.opcode, Opcode.reservedMask])

theorem byte (b : Byte) : Statement (.byte b) := of_operand _ (narrow_operand 8 b 0xFFFFFFFFFFFFFF00#64 (by decide))

theorem eos : Statement .eos := of_operand _ rfl

theorem rd (reg : Byte) : Statement (.rd reg) := of_operand _ (narrow_operand 8 reg 0xFFFFFFFFFFFFFF00#64 (by decide))

end Sys2Proof.Laws.TableRow
end

