-- ==== Sys2Proof/Laws/Stream.lean ====
section
/-! SUPPORT. Runs of commands, and the induction over a stream of `CHUNK` and `BYTE` commands, packaged once. -/

namespace Sys2Proof.Machine

variable {s t : State}

theorem runAll_cons {i : Instr} (is : List Instr) (h : exec i s = .next t) : runAll (i :: is) s = runAll is t := by
  simp [runAll, h]

/-- A run of a concatenation, when its first part ends in a next state. -/
theorem runAll_append {a : List Instr} (b : List Instr) (h : runAll a s = .next t) :
    runAll (a ++ b) s = runAll b t := by
  induction a generalizing s with
  | nil => cases h; rfl
  | cons i is ih =>
    simp only [List.cons_append, runAll] at h ⊢
    cases he : exec i s <;> rw [he] at h <;> simp_all

@[simp] theorem dataOf_bytes (bytes : List Byte) : dataOf (bytes.map .byte) = bytes := by
  induction bytes with
  | nil => rfl
  | cons b bs ih => simp [dataOf, ih]

@[simp] theorem respond_events (r : Response) (evs : List Event) : (s.respond r evs).events = s.events ++ evs := by
  simp [State.events]

/-- A state that takes stream commands: `Running`, a chunk received, the FIFO in its form. -/
structure Streaming (s : State) : Prop where
  running : s.st = .running
  chunked : s.firstValid = true
  level_le : s.level ≤ 2351

/-- The state after a `CHUNK` in `Running`. -/
abbrev chunked (offset : Word64) (s : State) : State :=
  okState [] { s.latchFirst offset with nextSampleOffset := offset }

/-- The state after a `BYTE` that completes a sector. -/
abbrev completed (b : Byte) (s : State) : State :=
  okState [progressEvent (drainSector (pushed b s))] (drainSector (pushed b s))

theorem execChunk_running (offset : Word64) (h : s.st = .running) :
    exec (.chunk offset) s = .next (chunked offset s) :=
  whenLegal_of_legal (by simp [legalIn, h]) _

theorem chunked_streaming (offset : Word64) (h : s.st = .running) (hl : s.level ≤ 2351) :
    Streaming (chunked offset s) :=
  ⟨by simp [h], by simp, by simpa [State.level] using hl⟩

/-- Induction over a stream: a relation between the first state, the last state and the bytes that holds of
the empty stream and goes back over each kind of command holds of every stream. -/
theorem runAll_stream_induct (P : State → State → List Byte → Prop)
    (nil : ∀ s, Streaming s → P s s [])
    (chunk : ∀ s offset t bs, Streaming s → P (chunked offset s) t bs → P s t bs)
    (below : ∀ s b t bs, Streaming s → s.level < 2351 → P (okState [] (pushed b s)) t bs → P s t (b :: bs))
    (full : ∀ s b t bs, Streaming s → s.level = 2351 → P (completed b s) t bs → P s t (b :: bs)) :
    ∀ (r : List Instr) (s : State), Streaming s → (∀ i ∈ r, isStream i = true) →
      ∃ t, runAll r s = .next t ∧ Streaming t ∧ P s t (dataOf r) := by
  intro r
  induction r with
  | nil => exact fun s hs _ => ⟨s, rfl, hs, nil s hs⟩
  | cons i is ih =>
    intro s hs hall
    have hi := hall i (by simp)
    have his : ∀ j ∈ is, isStream j = true := fun j hj => hall j (by simp [hj])
    cases i <;> simp only [isStream, Bool.false_eq_true] at hi
    case chunk offset =>
      rw [runAll_cons is (execChunk_running offset hs.running)]
      obtain ⟨t, h1, h2, h3⟩ := ih _ (chunked_streaming offset hs.running hs.level_le) his
      exact ⟨t, h1, h2, chunk s offset t _ hs h3⟩
    case byte b =>
      rcases Nat.lt_or_eq_of_le hs.level_le with hl | hl
      · rw [runAll_cons is (show exec (.byte b) s = _ from execByte_below b hs.running hs.chunked hl)]
        obtain ⟨t, h1, h2, h3⟩ := ih (okState [] (pushed b s))
          ⟨by simp [hs.running], by simp [hs.chunked], by simp; omega⟩ his
        exact ⟨t, h1, h2, below s b t _ hs hl h3⟩
      · rw [runAll_cons is (show exec (.byte b) s = _ from execByte_complete b hs.running hs.chunked hl)]
        obtain ⟨t, h1, h2, h3⟩ := ih (completed b s)
          ⟨by simp [hs.running], by simp [hs.chunked], by simp⟩ his
        exact ⟨t, h1, h2, full s b t _ hs hl h3⟩

/-! ## The accumulator of a drain -/

theorem drainSector_acc_crc32 (h : s.alg = .crc32) : (drainSector s).acc = crc32Bytes s.acc s.fifo := by
  simp [drainSector, updateSector, h, crc32Sector, crcSectorUpdate, State.consumeSector]

theorem drainSector_acc_accurateRip (h : s.alg = .accurateRip) :
    (drainSector s).acc = (arSector s.fifo s.clearFifo).acc := by
  simp [drainSector, updateSector, h, State.consumeSector]

/-- The weighted sum starts from any sum already taken. -/
theorem weightedSum_start (w : Nat) (sum : Word32) (vs : List Word32) :
    weightedSum w sum vs = sum + weightedSum w 0#32 vs := by
  induction vs generalizing w sum with
  | nil => simp [weightedSum]
  | cons v vs ih =>
    simp only [weightedSum]
    rw [ih, ih (sum := 0#32 + _)]
    simp [BitVec.add_assoc]

/-- The value of `le32` as a number (00_scope.md R13). -/
theorem le32_toNat (b0 b1 b2 b3 : Byte) :
    (le32 b0 b1 b2 b3).toNat =
      b0.toNat + 2 ^ 8 * b1.toNat + 2 ^ 16 * b2.toNat + 2 ^ 24 * b3.toNat := by
  have h0 := b0.isLt
  have h1 := b1.isLt
  have h2 := b2.isLt
  unfold le32
  simp only [BitVec.toNat_append]
  rw [← Nat.shiftLeft_add_eq_or_of_lt h2, ← Nat.shiftLeft_add_eq_or_of_lt h1,
    ← Nat.shiftLeft_add_eq_or_of_lt h0]
  simp only [Nat.shiftLeft_eq]
  omega

end Sys2Proof.Machine
end

