-- ==== Sys2Proof/Laws/Words.lean ====
section
/-! SUPPORT. What a step does with a word given as opcode and operand: the checks of 30_encoding.md R101 in
their order. -/

namespace Sys2Proof.Machine

@[simp] theorem build_opcode (op : Opcode) (x : Word64) : (op.build x).opcode = op := by cases op <;> rfl

/-- A mask of the bits from `k` up selects nothing exactly when those bits are zero. -/
theorem and_high_mask (k : Nat) (x mask : Word64)
    (hm : ∀ i, i < 64 → mask.getLsbD i = decide (k ≤ i)) : x &&& mask = 0#64 ↔ x >>> k = 0#64 := by
  constructor
  · intro h
    apply BitVec.eq_of_getLsbD_eq
    intro i hi
    have hb := congrArg (fun v => v.getLsbD (k + i)) h
    simp only [BitVec.getLsbD_and, BitVec.getLsbD_zero] at hb
    simp only [BitVec.getLsbD_ushiftRight, BitVec.getLsbD_zero]
    by_cases hl : k + i < 64
    · simpa [hm _ hl] using hb
    · exact BitVec.getLsbD_of_ge _ _ (by omega)
  · intro h
    apply BitVec.eq_of_getLsbD_eq
    intro i hi
    simp only [BitVec.getLsbD_and, BitVec.getLsbD_zero, hm i hi]
    by_cases hl : k ≤ i
    · have hb := congrArg (fun v => v.getLsbD (i - k)) h
      simp only [BitVec.getLsbD_ushiftRight, BitVec.getLsbD_zero] at hb
      rw [show k + (i - k) = i by omega] at hb
      simp [hb]
    · simp [hl]

variable {s : State} {rest : List CmdWord}

/-- A word of the map in a state its command is not legal in: `RSN_STATE`, whatever its operand. -/
theorem step_word_illegal (op : Opcode) (x : Word64) (hp : s.cmdPort = cmdWord op.code x :: rest)
    (h : legalIn op s.st = false) : step s = .next (rejectedState .state (s.withPort rest)) := by
  by_cases hx : x &&& op.reservedMask = 0#64
  · have hd : decode (cmdWord op.code x) = .instr (op.build x) := by rw [decode_cmdWord, if_pos hx]
    rw [step_instr hp hd]
    exact exec_illegal (by simpa using h)
  · have hd : decode (cmdWord op.code x) = .reservedBits op x := by rw [decode_cmdWord, if_neg hx]
    simp only [step, acceptWord_cons hp, hd, rejectReservedBits]
    exact whenLegal_of_illegal (by simpa using h) _

/-- A word of the map in a state its command is legal in: the command, or `RSN_OPERAND`. -/
theorem step_word_legal (op : Opcode) (x : Word64) (hp : s.cmdPort = cmdWord op.code x :: rest)
    (h : legalIn op s.st = true) :
    step s = if x &&& op.reservedMask = 0#64 then exec (op.build x) (s.withPort rest)
      else .next (rejectedState .operand (s.withPort rest)) := by
  split <;> rename_i hx
  · exact step_instr hp (by rw [decode_cmdWord, if_pos hx])
  · have hd : decode (cmdWord op.code x) = .reservedBits op x := by rw [decode_cmdWord, if_neg hx]
    simp only [step, acceptWord_cons hp, hd, rejectReservedBits]
    exact whenLegal_of_legal (by simpa using h) _

end Sys2Proof.Machine
end

