-- ==== Sys2Proof/Machine/Assembler.lean ====
section
/-! DEFINITION. The textual syntax and the pseudo-commands of 30_encoding.md R105 and R106. Nothing here is
state of the core: an assembler turns a line into commands, and `encode` turns a command into its word. -/

namespace Sys2Proof.Machine

/-! ## Pseudo-commands (R106) -/

/-- A program text: commands, the four pseudo-commands, and their sequence. -/
inductive Asm where
  | skip
  | cmd (i : Instr)
  | seq (first second : Asm)
  /-- `TASK alg, n, count, start, len`. -/
  | task (alg : Algorithm) (number count : Byte) (start len : Word64)
  /-- `DATA offset, b0 b1 ... bk`. -/
  | data (offset : Word64) (bytes : List Byte)
  /-- `FILL offset, count, b`. -/
  | fill (offset : Word64) (count : Nat) (b : Byte)
  /-- `REPEAT count` over the enclosed lines. -/
  | loop (count : Nat) (body : Asm)
deriving DecidableEq, Repr

/-- A list repeated a number of times. -/
def timesOf (l : List Instr) : Nat → List Instr
  | 0 => []
  | n + 1 => l ++ timesOf l n

/-- The commands a program text stands for (R106). -/
def Asm.expand : Asm → List Instr
  | .skip => []
  | .cmd i => [i]
  | .seq a b => a.expand ++ b.expand
  | .task alg number count start len =>
    [.setalg alg, .settrk number count, .setstart start, .setlen len]
  | .data offset bytes => chunkPacket offset bytes
  | .fill offset count b => chunkPacket offset (List.replicate count b)
  | .loop count body => timesOf body.expand count

/-! ## Numbers and names of a line (R105) -/

/-- The value of one digit, 0 to 15. -/
def digitValue (c : Char) : Option Nat :=
  if '0'.toNat ≤ c.toNat ∧ c.toNat ≤ '9'.toNat then some (c.toNat - '0'.toNat)
  else if 'A'.toNat ≤ c.toNat ∧ c.toNat ≤ 'F'.toNat then some (c.toNat - 'A'.toNat + 10)
  else if 'a'.toNat ≤ c.toNat ∧ c.toNat ≤ 'f'.toNat then some (c.toNat - 'a'.toNat + 10)
  else none

/-- The number a run of digits denotes in a base; none for a character that is no digit of it. -/
def digitsValue (base acc : Nat) : List Char → Option Nat
  | [] => some acc
  | c :: cs =>
    match digitValue c with
    | none => none
    | some d => if d < base then digitsValue base (acc * base + d) cs else none

/-- A number: decimal, or hexadecimal with `0x`. -/
def parseNumber : List Char → Option Nat
  | [] => none
  | ['0', 'x'] => none
  | '0' :: 'x' :: cs => digitsValue 16 0 cs
  | cs => digitsValue 10 0 cs

/-- A number that fits in `w` bits. -/
def parseWord (w : Nat) (cs : List Char) : Option (BitVec w) :=
  match parseNumber cs with
  | none => none
  | some n => if n < 2 ^ w then some (BitVec.ofNat w n) else none

/-- The operand of `SETALG`: `CRC32`, `AR`, or a number. -/
def parseAlgorithm (cs : List Char) : Option Algorithm :=
  if cs = "CRC32".toList then some .crc32
  else if cs = "AR".toList then some .accurateRip
  else (parseWord 1 cs).map Algorithm.ofCode

/-- The operand of `SETLEN`: a number, or `UNKNOWN` for -1. -/
def parseLength (cs : List Char) : Option Word64 :=
  if cs = "UNKNOWN".toList then some 0xFFFFFFFFFFFFFFFF#64 else parseWord 64 cs

/-- The register names of R102. -/
def regNames : List (String × Byte) :=
  [("ST", 0#8), ("ERR", 1#8), ("RESULT", 2#8), ("MISSING", 3#8), ("ALG", 4#8), ("TRACK", 5#8),
   ("FRAMESTART", 6#8), ("FRAMELENGTH", 7#8), ("FRAMEEND", 8#8), ("BYTESCONSUMED", 9#8),
   ("DISCFRAMECOUNTER", 10#8), ("FIRSTOFFSET", 11#8), ("NEXTOFFSET", 12#8), ("LEVEL", 13#8),
   ("FLAGS", 14#8)]

/-- The operand of `RD`: a register name of R102, or a number. -/
def parseReg (cs : List Char) : Option Byte :=
  match regNames.find? (fun r => r.1.toList == cs) with
  | some r => some r.2
  | none => parseWord 8 cs

/-! ## Lines (R105) -/

/-- A line without its comment: everything before the first `;`. -/
def stripComment (line : List Char) : List Char := line.takeWhile (· != ';')

/-- The words of a line: runs of characters between spaces, tabs and commas. `word` is the word being
read, reversed. -/
def wordsOf (word : List Char) : List Char → List (List Char)
  | [] => if word = [] then [] else [word.reverse]
  | c :: cs =>
    if c = ' ' ∨ c = ',' ∨ c = '\t' then
      if word = [] then wordsOf [] cs else word.reverse :: wordsOf [] cs
    else wordsOf (c :: word) cs

/-- The bytes of a `DATA` line. -/
def parseBytes : List (List Char) → Option (List Byte)
  | [] => some []
  | w :: ws =>
    match parseWord 8 w, parseBytes ws with
    | some b, some bs => some (b :: bs)
    | _, _ => none

/-- One line, its mnemonic and its operand words, as a command or a one-line pseudo-command; none
for a line that is neither. -/
def parseWords : List (List Char) → Option Asm
  | [] => some .skip
  | [m] =>
    if m = "NOTFOUND".toList then some (.cmd .notfound)
    else if m = "START".toList then some (.cmd .start)
    else if m = "CANCEL".toList then some (.cmd .cancel)
    else if m = "EOS".toList then some (.cmd .eos)
    else none
  | [m, a] =>
    if m = "SETALG".toList then (parseAlgorithm a).map (fun x => .cmd (.setalg x))
    else if m = "SETSTART".toList then (parseWord 64 a).map (fun x => .cmd (.setstart x))
    else if m = "SETLEN".toList then (parseLength a).map (fun x => .cmd (.setlen x))
    else if m = "DURATION".toList then (parseWord 64 a).map (fun x => .cmd (.duration x))
    else if m = "CHUNK".toList then (parseWord 64 a).map (fun x => .cmd (.chunk x))
    else if m = "BYTE".toList then (parseWord 8 a).map (fun x => .cmd (.byte x))
    else if m = "RD".toList then (parseReg a).map (fun x => .cmd (.rd x))
    else none
  | [m, a, b] =>
    if m = "SETTRK".toList then
      match parseWord 8 a, parseWord 8 b with
      | some x, some y => some (.cmd (.settrk x y))
      | _, _ => none
    else if m = "DATA".toList then
      match parseWord 64 a, parseWord 8 b with
      | some x, some y => some (.data x [y])
      | _, _ => none
    else none
  | m :: a :: b :: c :: more =>
    if m = "DATA".toList then
      match parseWord 64 a, parseBytes (b :: c :: more) with
      | some x, some bs => some (.data x bs)
      | _, _ => none
    else if m = "FILL".toList ∧ more = [] then
      match parseWord 64 a, parseNumber b, parseWord 8 c with
      | some x, some n, some v => some (.fill x n v)
      | _, _, _ => none
    else if m = "TASK".toList then
      match parseAlgorithm a, parseWord 8 b, parseWord 8 c, more with
      | some x, some n, some k, [d, e] =>
        match parseWord 64 d, parseLength e with
        | some start, some len => some (.task x n k start len)
        | _, _ => none
      | _, _, _, _ => none
    else none

/-- One line of text (R105, R106). -/
def parseLine (line : String) : Option Asm := parseWords (wordsOf [] (stripComment line.toList))

/-- Whether these words open a `REPEAT` block, and its count; the last word is an opening brace. -/
def repeatHead : List (List Char) → Option Nat
  | [m, n, brace] =>
    if m = "REPEAT".toList ∧ brace = [Char.ofNat 123] then parseNumber n else none
  | _ => none

/-- Lines of text, a command, a pseudo-command or a `REPEAT` block bracket each (R105, R106). `done` is the
text read so far in the current block, `outer` the enclosing blocks: their counts, and what each had
read before the block opened. -/
def parseLines (done : Asm) (outer : List (Nat × Asm)) : List String → Option Asm
  | [] => if outer = [] then some done else none
  | line :: lines =>
    let words := wordsOf [] (stripComment line.toList)
    match repeatHead words with
    | some n => parseLines .skip ((n, done) :: outer) lines
    | none =>
      if words = [[Char.ofNat 125]] then
        match outer with
        | [] => none
        | (n, before) :: rest => parseLines (.seq before (.loop n done)) rest lines
      else
        match parseWords words with
        | none => none
        | some a => parseLines (.seq done a) outer lines

/-- A program text (R105, R106). -/
def parseProgram (lines : List String) : Option Asm := parseLines .skip [] lines

/-- The command words of a program text (R105). -/
def assemble (p : Asm) : List CmdWord := p.expand.map encode

end Sys2Proof.Machine
end

