-- ==== Sys2Proof/Tests/Slice0.lean ====
section
/-! SUPPORT. Tests of the model, their expected results from the spec's own examples and vectors
(95_test_vectors.md, and the examples of the rules), and the witnesses of the statements' hypotheses. -/

namespace Sys2Proof.Tests
open Sys2Proof.Machine Sys2Proof.Claims

/-! ## Constants (00_scope.md R2, R6, S9) -/

theorem test_sector_bytes : Config.bytesPerFrame = Config.samplesPerFrame * Config.bytesPerSample := by decide

theorem test_head_weight : Config.headWeight = Config.samplesPerFrame * Config.headSkip := by decide

/-! ## Well-formedness: the one check, and a term it refuses -/

theorem test_wf_refuses_reserved_register : (Instr.rd 15#8).wf = false := by decide
theorem test_wf_refuses_last_register : (Instr.rd 255#8).wf = false := by decide
theorem test_wf_admits_flags : (Instr.rd 14#8).wf = true := by decide
theorem test_word_wf_refuses_opcode : CmdWord.wf 0x000000000000000000#72 = false := by decide
theorem test_word_wf_refuses_reserved_bit : CmdWord.wf 0x020000000000010000#72 = false := by decide

/-! ## Decoding, words written out from 30_encoding.md R90, R93 (V-E-1 to V-E-16), and encoding back -/

theorem test_decode_setalg : decode 0x010000000000000001#72 = .instr (.setalg .accurateRip) := by decide
theorem test_decode_settrk : decode 0x020000000000000C01#72 = .instr (.settrk 1#8 12#8) := by decide
theorem test_decode_setstart : decode 0x03000000000000024C#72 = .instr (.setstart 588#64) := by decide
theorem test_decode_setlen : decode 0x04FFFFFFFFFFFFFFFF#72 = .instr (.setlen 0xFFFFFFFFFFFFFFFF#64) := by decide
theorem test_decode_notfound : decode 0x050000000000000000#72 = .instr .notfound := by decide
theorem test_decode_start : decode 0x080000000000000000#72 = .instr .start := by decide
theorem test_decode_duration : decode 0x090000000000000930#72 = .instr (.duration 2352#64) := by decide
theorem test_decode_cancel : decode 0x0A0000000000000000#72 = .instr .cancel := by decide
theorem test_decode_chunk : decode 0x100000000000000498#72 = .instr (.chunk 1176#64) := by decide
theorem test_decode_byte : decode 0x1100000000000000AB#72 = .instr (.byte 0xAB#8) := by decide
theorem test_decode_eos : decode 0x120000000000000000#72 = .instr .eos := by decide
theorem test_decode_rd : decode 0x20000000000000000E#72 = .instr (.rd 14#8) := by decide
theorem test_decode_refuses_opcode : decode 0x210000000000000000#72 = .reservedOpcode 0x21#8 := by decide
theorem test_decode_refuses_bit : decode 0x080000000000000001#72 = .reservedBits .start 1#64 := by decide
theorem test_encode_settrk : encode (.settrk 2#8 3#8) = 0x020000000000000302#72 := by decide
theorem test_encode_rd : encode (.rd 2#8) = 0x200000000000000002#72 := by decide
theorem test_table_word : decodeTableWord 72 0x1100000000000000AB = some (.byte 0xAB#8) := by decide
theorem test_table_word_too_long : decodeTableWord 80 0x011100000000000000AB = none := by decide

/-! ## Response and event words (95_test_vectors.md 2.1) -/

theorem test_response_ok : (Response.ok 0xD9602110#64).encode = 0x000000000D9602110#66 := by decide
theorem test_response_rejected : (Response.rejected .state).encode = 0x10000000000000002#66 := by decide
theorem test_event_seek : (Event.seek 0#64 587#64).encode = 0x020000000000000000000000000000024B#136 := by decide
theorem test_event_error : (Event.error .truncatedRange 0xFFFFFFFFFFFFFDB4#64).encode =
    0x050000000000000003FFFFFFFFFFFFFDB4#136 := by decide

/-! ## States the tests and witnesses start from -/

/-- A session of these settings, its range starting at sample 0, that has just entered `Running`. -/
def session (alg : Algorithm) (number count : Byte) (length : Word64) : State :=
  { State.reset with
    st := .running, alg := alg, trackNumber := number, trackCount := count
    frameLength := length, frameEnd := length - 1#64 }

/-- A session of 588 samples in CRC32 mode. -/
def fresh : State := session .crc32 1#8 1#8 588#64

/-- The same, with AccurateRip chosen and these track numbers. -/
def freshAr (number count : Byte) : State := session .accurateRip number count 588#64

/-- The core after `START` with an unknown length. -/
def started : State := { State.reset with st := .started }

/-- The core after `CANCEL` in `Created`. -/
def failed : State := { State.reset with st := .failed, err := some .cancelled }

/-- The core after an `EOS` that found the range whole. -/
def stopped : State :=
  { fresh with st := .stopped, firstValid := true, nextSampleOffset := 588#64, bytesConsumed := 2352#64 }

/-- A chunk has been received and these bytes are held. -/
def holding (bytes : List Byte) (s : State) : State := { s with firstValid := true, fifo := bytes }

/-- A sector of zeros but for its last byte. -/
def almostSector : List Byte := List.replicate 2351 0#8

/-- One `BYTE` short of a sector. -/
def full (s : State) : State := holding almostSector s

/-- The last answer after a command, if it gives a next state. -/
def answerOf (i : Instr) (s : State) : Option Answer := (nextOf (exec i s)).bind State.lastAnswer

/-- The last answer after one step with this word on the port. -/
def wordAnswer (w : CmdWord) (s : State) : Option Answer :=
  (nextOf (step (s.withPort [w]))).bind State.lastAnswer

/-- A register of the next state. -/
def after {α : Type} (i : Instr) (s : State) (field : State → α) : Option α := (nextOf (exec i s)).map field

/-! ## The configuration and lifecycle commands (43_session.md) -/

theorem test_setalg : after (.setalg .accurateRip) State.reset State.alg = some .accurateRip := by decide
theorem test_setalg_after_start : answerOf (.setalg .accurateRip) fresh =
    some { response := .rejected .state, events := [] } := by decide
theorem test_settrk : after (.settrk 1#8 12#8) State.reset (fun t => (t.trackNumber, t.trackCount)) =
    some (1#8, 12#8) := by decide
theorem test_setstart : after (.setstart 588#64) State.reset State.frameStart = some 588#64 := by decide
theorem test_setlen : after (.setlen 7056#64) State.reset State.frameLength = some 7056#64 := by decide
theorem test_notfound : answerOf .notfound State.reset =
    some { response := .ok 0#64, events := [.error .notFound 0#64] } := by decide
theorem test_notfound_fails : after .notfound State.reset (fun t => (t.st, t.err)) =
    some (.failed, some .notFound) := by decide
theorem test_start_unknown : answerOf .start State.reset =
    some { response := .ok 0#64, events := [.queryLen] } := by decide
theorem test_start_zero_length : after .start { State.reset with frameLength := 0#64 } State.frameEnd =
    some 0xFFFFFFFFFFFFFFFF#64 := by decide
theorem test_duration : after (.duration 2352#64) { State.reset with st := .started, frameStart := 588#64 }
    (fun t => (t.frameLength, t.frameEnd, t.st)) = some (1764#64, 2351#64, .running) := by decide
theorem test_duration_short : answerOf (.duration 100#64) { State.reset with st := .started, frameStart := 588#64 } =
    some { response := .rejected .operand, events := [] } := by decide
theorem test_cancel_created : answerOf .cancel State.reset =
    some { response := .ok 0#64, events := [.error .cancelled 0#64] } := by decide
theorem test_cancel_running : answerOf .cancel fresh =
    some { response := .ok 0#64, events := [.stop, .error .cancelled 0#64] } := by decide
theorem test_eos_no_data : after .eos fresh (fun t => (t.st, t.err)) = some (.failed, some .noData) := by decide
theorem test_eos_empty_chunk : answerOf .eos { fresh with firstValid := true } =
    some { response := .ok 0#64, events := [.error .truncatedRange 588#64, .done 0#32] } := by decide

/-! ## The stream commands (40_frame_assembler.md, V-F-1 to V-F-8) -/

theorem test_chunk_latches_once :
    (nextOf (runAll [.chunk 100#64, .byte 1#8, .byte 2#8, .byte 3#8, .byte 4#8, .chunk 7#64] fresh)).map
      (fun t => (t.firstSampleOffset, t.nextSampleOffset, t.level)) = some (100#64, 7#64, 4) := by decide
theorem test_byte_counts_a_sample :
    after (.byte 4#8) (holding [1#8, 2#8, 3#8] fresh) (fun t => (t.level, t.nextSampleOffset)) =
      some (4, 1#64) := by decide
theorem test_byte_before_chunk : answerOf (.byte 0#8) fresh =
    some { response := .rejected .state, events := [] } := by decide

/-! ## The CRC32 generator (41_crc32.md R140, R147, 95_test_vectors.md 2.3) -/

theorem test_crc_byte : crc32Byte 0#32 0x61#8 = 0xE8B7BE43#32 := by decide
theorem test_crc_abc : crc32Bytes 0#32 [0x61#8, 0x62#8, 0x63#8] = 0x352441C2#32 := by decide +kernel

/-! ## The AccurateRip accumulator (42_accuraterip.md, 95_test_vectors.md 2.4) -/

theorem test_le32 : le32 1#8 0#8 2#8 0#8 = 0x00020001#32 := by decide
theorem test_weights : weightedSum 1 0#32 [0xFFFFFFFF#32, 0x80000000#32] = 0xFFFFFFFF#32 := by decide
theorem test_head_contribution :
    headContribution (List.replicate 2348 0#8 ++ [0x78#8, 0x56#8, 0x34#8, 0x12#8]) = 0x11110A20#32 := by
  decide +kernel
/-- The example of R168, its last byte pushed by the command. -/
theorem test_ar_sector :
    after (.byte 0#8) (holding ([1#8, 0#8, 0#8, 0#8, 2#8] ++ List.replicate 2346 0#8) (freshAr 2#8 3#8))
      (fun t => (t.acc, t.level, t.bytesConsumed, t.discFrameCounter)) = some (5#32, 0, 2352#64, 1#64) := by
  decide +kernel
theorem test_ar_progress : answerOf (.byte 0#8) (full (freshAr 1#8 1#8)) =
    some { response := .ok 0#64, events := [.progress 588#64 588#64] } := by decide +kernel
theorem test_head_skipped : (arAccumulate 4 [] (freshAr 1#8 3#8)).acc = 0#32 := by decide
theorem test_tail_rounds_down : inTail 3 { freshAr 3#8 3#8 with frameLength := 4703#64 } = true ∧
    inTail 2 { freshAr 3#8 3#8 with frameLength := 4703#64 } = false := by decide

/-! ## Readout and rejections (44_readout.md R230, 95_test_vectors.md V-E-20 to V-E-28, V-S-16) -/

theorem test_rd_track : answerOf (.rd 5#8) { State.reset with trackNumber := 1#8, trackCount := 12#8 } =
    some { response := .ok 0x0C01#64, events := [] } := by decide
theorem test_rd_length : answerOf (.rd 7#8) State.reset =
    some { response := .ok 0xFFFFFFFFFFFFFFFF#64, events := [] } := by decide
theorem test_reject_opcode : wordAnswer 0x210000000000000000#72 State.reset =
    some { response := .rejected .opcode, events := [] } := by decide
theorem test_reject_operand : wordAnswer 0x080000000000000001#72 State.reset =
    some { response := .rejected .operand, events := [] } := by decide
theorem test_reject_state_first : wordAnswer 0x1100000000000001AB#72 State.reset =
    some { response := .rejected .state, events := [] } := by decide
theorem test_reject_register : wordAnswer 0x20000000000000000F#72 State.reset =
    some { response := .rejected .operand, events := [] } := by decide
theorem test_reject_early_result : wordAnswer 0x200000000000000002#72 State.reset =
    some { response := .rejected .state, events := [] } := by decide

/-! ## The assembler (30_encoding.md R105, R106) and the document's interface (R97) -/

theorem test_parse_settrk : parseLine "SETTRK 1, 12 ; track 1 of 12" = some (.cmd (.settrk 1#8 12#8)) := by
  decide +kernel
theorem test_parse_unknown : parseLine "SETLEN UNKNOWN" = some (.cmd (.setlen 0xFFFFFFFFFFFFFFFF#64)) := by
  decide +kernel
theorem test_parse_rd_name : parseLine "RD NEXTOFFSET" = some (.cmd (.rd 12#8)) := by decide +kernel
theorem test_parse_fill : parseLine "FILL 588, 3, 0xAB" = some (.fill 588#64 3 0xAB#8) := by decide +kernel
theorem test_expand_fill : (Asm.fill 588#64 2 0xAB#8).expand =
    [.chunk 588#64, .byte 0xAB#8, .byte 0xAB#8] := by decide
theorem test_doc_task : (DocOp.createTask 1#8 1#8 0#64 588#64 .crc32).commands =
    (Asm.task .crc32 1#8 1#8 0#64 588#64).expand := by decide

/-! ## The step and the interface the host reads -/

theorem test_idle : nextOf (step State.reset) = some State.reset := by decide
theorem test_fetch_word : nextOf (step (State.reset.withFetchWord 72 0x03000000000000024C)) =
    nextOf (exec (.setstart 588#64) State.reset) := by decide

/-! ## Witnesses: for every statement with hypotheses, a state and operands that meet all of them -/

/-- A session that has just entered `Running` meets the invariant, whatever its settings. -/
theorem session_fresh (alg : Algorithm) (number count : Byte) (length : Word64)
    (h : 0 ≤ signed64 length) : FreshRunning (session alg number count length) := by
  refine ⟨rfl, ?_, rfl⟩
  constructor <;> simp [session, State.reset, State.level]
  exact h

theorem reset_inv : Inv State.reset := by constructor <;> decide
theorem fresh_inv : FreshRunning fresh := session_fresh _ _ _ _ (by decide)
theorem freshAr_inv (number count : Byte) : FreshRunning (freshAr number count) :=
  session_fresh _ _ _ _ (by decide)

/-- A state with an error recorded that meets the invariant. -/
theorem failed_inv : Inv failed where
  level_le := by decide
  consumed_aligned := by decide
  accurateRip_counted := by intro h; cases h
  crc32_uncounted := fun _ => rfl
  fatal_failed := fun _ _ _ => rfl
  truncated_stopped := by intro h; cases h
  failed_fatal := fun _ => ⟨.cancelled, rfl, rfl⟩
  fresh := by intro h; rcases h with h | h <;> cases h
  no_chunk := fun _ => ⟨rfl, rfl, rfl, rfl, rfl, rfl⟩
  resolved_length := by intro h; rcases h with h | h <;> cases h
  resolved_end := by intro h; rcases h with h | h <;> cases h
  missing_iff := by simp [failed, State.reset]
  unresolved_end := by intro h; rcases h with h | h <;> cases h
  started_unknown := by intro h; cases h

/-- What waits on the port is no part of the invariant. -/
theorem inv_withPort (s : State) (words : List CmdWord) (h : Inv s) : Inv (s.withPort words) := by
  cases h; constructor <;> assumption

theorem full_level (s : State) : (full s).level = 2351 := by
  exact List.length_replicate

/-! ### Decoding and the step -/

theorem witness_EncodeOfDecodeIsTheWord :
    decode 0x020000000000000C01#72 = .instr (.settrk 1#8 12#8) := by decide
theorem witness_StepRunsTheDecodedCommand :
    (State.reset.withPort [0x080000000000000000#72]).cmdPort = 0x080000000000000000#72 :: [] ∧
    decode 0x080000000000000000#72 = .instr .start := by decide
theorem witness_IdleStepChangesNothing : State.reset.cmdPort = [] := by decide
theorem witness_ReservedOpcodeIsRejected :
    ∀ n ∈ [0x00, 0x06, 0x07, 0x0B, 0x0F, 0x13, 0x1F, 0x21, 0xFF],
      Opcode.ofCode (BitVec.ofNat 8 n) = none ∧
      ((BitVec.ofNat 8 n).toNat = 0x00 ∨ (BitVec.ofNat 8 n).toNat = 0x06 ∨ (BitVec.ofNat 8 n).toNat = 0x07 ∨
        (0x0B ≤ (BitVec.ofNat 8 n).toNat ∧ (BitVec.ofNat 8 n).toNat ≤ 0x0F) ∨
        (0x13 ≤ (BitVec.ofNat 8 n).toNat ∧ (BitVec.ofNat 8 n).toNat ≤ 0x1F) ∨
        (0x21 ≤ (BitVec.ofNat 8 n).toNat ∧ (BitVec.ofNat 8 n).toNat ≤ 0xFF)) := by decide
theorem witness_EveryAcceptedWordIsAnsweredOnce :
    ((full fresh).withPort [0#72]).level ≤ 2351 ∧ ((full fresh).withPort [0#72]).cmdPort = 0#72 :: [] :=
  ⟨by simpa [State.level, State.withPort] using (full_level fresh).le, rfl⟩
theorem witness_RejectedWordChangesNothing : ∃ t,
    (State.reset.withPort [0#72]).cmdPort = 0#72 :: [] ∧ step (State.reset.withPort [0#72]) = .next t ∧
    t.lastAnswer = some { response := .rejected .opcode, events := [] } := ⟨_, rfl, rfl, by decide⟩
theorem witness_RunningWordsIsExecutingCommands : State.reset.cmdPort = [] := by decide

/-! ### The configuration and lifecycle commands -/

/-- `SETALG`, `SETTRK`, `SETSTART`, `SETLEN`, `NOTFOUND`, `CANCEL` in `Created`. -/
theorem witness_created : State.reset.st = .created := by decide
theorem witness_StartAsksOrResolves :
    (State.reset.st = .created ∧ State.reset.frameLength.toInt < 0) ∧
    (0x8000000000000000#64 : Word64).toInt < 0 ∧
    ({ State.reset with frameLength := 0#64 }.st = .created ∧
      0 ≤ { State.reset with frameLength := 0#64 }.frameLength.toInt) ∧
    0 ≤ (0x7FFFFFFFFFFFFFFF#64 : Word64).toInt := by decide
/-- Both bounds of the accepted range, and a value just outside each. -/
theorem witness_DurationResolvesTheLength :
    let s := { started with frameStart := 588#64 }
    s.st = .started ∧
    (∀ total ∈ [588#64, 0x800000000000024B#64],
      s.frameStart.toNat ≤ total.toNat ∧ total.toNat - s.frameStart.toNat ≤ 2 ^ 63 - 1) ∧
    (587#64 : Word64).toNat < s.frameStart.toNat ∧
    2 ^ 63 - 1 < (0x800000000000024C#64 : Word64).toNat - s.frameStart.toNat := by
  simp [started, State.reset]
theorem witness_CancelFailsTheTask : started.st = .started ∧ fresh.st = .running := by decide
/-- One state for each branch of `EOS`. -/
theorem witness_EosFinalizesOrFails :
    fresh.st = .running ∧ fresh.firstValid = false ∧
    (holding [0#8] fresh).st = .running ∧ (holding [0#8] fresh).firstValid = true ∧
    (holding [0#8] fresh).fifo.length % 4 ≠ 0 ∧
    (holding [] fresh).fifo.length % 4 = 0 ∧ (holding [] fresh).nextSampleOffset - 1#64 ≠ (holding [] fresh).frameEnd ∧
    { holding [] fresh with nextSampleOffset := 588#64 }.nextSampleOffset - 1#64 = fresh.frameEnd := by decide
theorem witness_TransitionTable :
    State.reset.st ∉ executableIn .eos ∧
    (State.reset.st ∈ executableIn .start ∧ (nextOf (exec .start State.reset)).isSome = true) ∧
    fresh.st = .running ∧ fresh.firstValid = false := by decide

/-! ### The stream commands and the drain -/

theorem witness_ChunkLoadsTheOffset :
    fresh.st = .running ∧ fresh.firstValid = false ∧
    (holding [] fresh).st = .running ∧ (holding [] fresh).firstValid = true := by decide
theorem witness_BytePushesAndDrains :
    ((holding [] fresh).st = .running ∧ (holding [] fresh).firstValid = true ∧ (holding [] fresh).level < 2351) ∧
    ((holding (List.replicate 2350 0#8) fresh).level < 2351) ∧
    ((full fresh).st = .running ∧ (full fresh).firstValid = true ∧ (full fresh).level = 2351) ∧
    (fresh.st = .running ∧ fresh.firstValid = false) :=
  ⟨by decide, lt_of_eq_of_lt List.length_replicate (by decide), ⟨rfl, rfl, full_level _⟩, rfl, rfl⟩
theorem witness_ByteBeyondCapacityFaults :
    (holding (List.replicate 2352 0#8) fresh).st = .running ∧
    (holding (List.replicate 2352 0#8) fresh).firstValid = true ∧
    2352 ≤ (holding (List.replicate 2352 0#8) fresh).level :=
  ⟨rfl, rfl, List.length_replicate.ge⟩
theorem witness_CrcSectorFoldsEveryByte :
    (full fresh).st = .running ∧ (full fresh).firstValid = true ∧ (full fresh).level = 2351 ∧
    (full fresh).alg = .crc32 := ⟨rfl, rfl, full_level _, rfl⟩

/-- The sectors counted before the one a `BYTE` completes. -/
def counted (n : Word64) (s : State) : State := { s with discFrameCounter := n }

theorem witness_ArSectorFollowsTheRule (number count : Byte) (n : Word64) :
    (counted n (full (freshAr number count))).st = .running ∧
    (counted n (full (freshAr number count))).firstValid = true ∧
    (counted n (full (freshAr number count))).level = 2351 ∧
    (counted n (full (freshAr number count))).alg = .accurateRip := ⟨rfl, rfl, List.length_replicate, rfl⟩
/-- Its branches at their borders: sectors 4, 5 and 6 of a first track, and of a last track of ten sectors the
last one counted and the first one skipped. -/
theorem witness_ArSectorFollowsTheRule_branches :
    (counted 3#64 (full (freshAr 1#8 3#8))).trackNumber = 1#8 ∧ (3#64 + 1#64 : Word64).toNat ≤ 4 ∧
    (4#64 + 1#64 : Word64).toNat = 5 ∧ ¬ (5#64 + 1#64 : Word64).toNat ≤ 5 ∧
    (session .accurateRip 3#8 3#8 5880#64).trackNumber = (session .accurateRip 3#8 3#8 5880#64).trackCount ∧
    ¬ (session .accurateRip 3#8 3#8 5880#64).frameLength.toInt / 588 < ((4#64 + 1#64 : Word64).toNat : Int) + 5 ∧
    (session .accurateRip 3#8 3#8 5880#64).frameLength.toInt / 588 < ((5#64 + 1#64 : Word64).toNat : Int) + 5 := by
  decide
theorem witness_ProgressIsTheExactRatio :
    (full fresh).st = .running ∧ (full fresh).firstValid = true ∧ (full fresh).level = 2351 ∧
    0 ≤ (full fresh).frameLength.toInt := ⟨rfl, rfl, full_level _, by decide⟩
theorem witness_ProgressOnlyFromADrain :
    (nextOf (exec (.byte 0#8) (holding [] fresh))).isSome = true ∧
    (full fresh).st = .running ∧ (full fresh).firstValid = true ∧ (full fresh).level = 2351 :=
  ⟨by decide, rfl, rfl, full_level _⟩
theorem witness_ProgressNeverFalls :
    Inv fresh ∧ fresh.st = .running ∧ (∀ i ∈ chunkPacket 0#64 [1#8, 2#8], isStream i = true) ∧
    fresh.bytesConsumed.toNat + fresh.level + (dataOf (chunkPacket 0#64 [1#8, 2#8])).length < 2 ^ 64 :=
  ⟨fresh_inv.inv, by decide, by decide, by decide⟩
theorem witness_FifoHoldsTheTail :
    (full fresh).st = .running ∧ (full fresh).level ≤ 2351 ∧
    ∀ i ∈ [Instr.byte 1#8, .chunk 5#64, .byte 2#8], isStream i = true :=
  ⟨rfl, (full_level _).le, by decide⟩
theorem witness_OffsetCountsWholeSamples :
    fresh.st = .running ∧ fresh.level ≤ 2351 ∧ fresh.level % 4 = 0 := by decide
theorem witness_ChunkingInvariance :
    fresh.st = .running ∧ fresh.level ≤ 2351 ∧
    (∀ i ∈ [Instr.byte 1#8, .chunk 7#64, .byte 2#8], isStream i = true) ∧
    (∀ i ∈ [Instr.byte 1#8, .byte 2#8], isStream i = true) ∧
    dataOf [.byte 1#8, .chunk 7#64, .byte 2#8] = dataOf [.byte 1#8, .byte 2#8] := by decide
theorem witness_TruncationUnderTheContract :
    FreshRunning fresh ∧ [[1#8, 2#8, 3#8, 4#8]] ≠ ([] : List (List Byte)) ∧
    wholeChunks [[1#8, 2#8, 3#8, 4#8]] = true ∧ [[1#8, 2#8, 3#8, (4#8 : Byte)]].flatten.length / 4 < 2 ^ 64 :=
  ⟨fresh_inv, by decide, by decide, by decide⟩
theorem witness_NoDataExactlyWithoutAChunk :
    FreshRunning fresh ∧
    (∀ i ∈ [Instr.rd 0#8, .byte 1#8], i.opcode = .chunk ∨ i.opcode = .byte ∨ i.opcode = .rd) ∧
    (∀ i ∈ [Instr.chunk 0#64], i.opcode = .chunk ∨ i.opcode = .byte ∨ i.opcode = .rd) :=
  ⟨fresh_inv, by decide, by decide⟩

/-! ### The algorithms over streams -/

theorem witness_CrcOfTheStream :
    FreshRunning fresh ∧ fresh.alg = .crc32 ∧
    (∀ i ∈ [Instr.byte 1#8, .byte 2#8, .byte 3#8, .byte 4#8], isStream i = true) ∧
    (dataOf [.byte 1#8, .byte 2#8, .byte 3#8, .byte 4#8]).length % 4 = 0 :=
  ⟨fresh_inv, by decide, by decide, by decide⟩
theorem witness_AccurateRipOfTheStream :
    FreshRunning (freshAr 2#8 3#8) ∧ (freshAr 2#8 3#8).alg = .accurateRip ∧
    (freshAr 2#8 3#8).trackNumber ≠ 1#8 ∧ (freshAr 2#8 3#8).trackNumber ≠ (freshAr 2#8 3#8).trackCount ∧
    ∀ i ∈ [Instr.byte 1#8], isStream i = true :=
  ⟨freshAr_inv _ _, by decide, by decide, by decide, by decide⟩
theorem witness_FifthSectorGivesItsLastSample :
    FreshRunning (freshAr 1#8 1#8) ∧ (freshAr 1#8 1#8).alg = .accurateRip ∧
    (freshAr 1#8 1#8).trackNumber = 1#8 ∧ 2 ^ 32 - 1 < 2 ^ 32 :=
  ⟨freshAr_inv _ _, by decide, by decide, by decide⟩
theorem witness_HeadSkipHidesTheHead :
    FreshRunning (freshAr 1#8 3#8) ∧ (freshAr 1#8 3#8).alg = .accurateRip ∧
    (freshAr 1#8 3#8).trackNumber = 1#8 ∧ (List.replicate 11756 0#8).length = 11756 ∧
    (List.replicate 11756 255#8).length = 11756 ∧ [1#8, 2#8, 3#8, (4#8 : Byte)].length < 2 ^ 32 :=
  ⟨freshAr_inv _ _, by decide, by decide, List.length_replicate, List.length_replicate, by decide⟩
/-- A last track of six sectors, one of them kept; and a first and last track of ten. -/
theorem witness_TailSkipHidesTheTail :
    (FreshRunning (session .accurateRip 3#8 3#8 3528#64) ∧
      ((6 : Nat) : Int) = (session .accurateRip 3#8 3#8 3528#64).frameLength.toInt / 588 ∧
      (session .accurateRip 3#8 3#8 3528#64).trackNumber ≠ 1#8 ∧
      (List.replicate 2352 1#8).length = 2352 * (6 - 5)) ∧
    (FreshRunning (session .accurateRip 1#8 1#8 5880#64) ∧
      ((10 : Nat) : Int) = (session .accurateRip 1#8 1#8 5880#64).frameLength.toInt / 588 ∧
      (session .accurateRip 1#8 1#8 5880#64).trackNumber = (session .accurateRip 1#8 1#8 5880#64).trackCount ∧
      (List.replicate 11760 1#8).length = 2352 * (10 - 5)) ∧
    (List.replicate 11760 0#8).length = (List.replicate 11760 255#8).length ∧
    (List.replicate 11760 1#8).length + (List.replicate 11760 0#8).length < 2 ^ 64 :=
  ⟨⟨session_fresh _ _ _ _ (by decide), by decide, by decide, List.length_replicate⟩,
   ⟨session_fresh _ _ _ _ (by decide), by decide, by decide, List.length_replicate⟩, by rw [List.length_replicate, List.length_replicate],
   by rw [List.length_replicate, List.length_replicate]; decide⟩

/-! ### Readout -/

theorem witness_RdAnswersOrRefuses :
    14 < (15#8 : Byte).toNat ∧ State.reset.st ≠ .stopped ∧ (14#8 : Byte).toNat ≤ 14 ∧ (2#8 : Byte).toNat ≤ 14 ∧
    stopped.st = .stopped := by decide
theorem witness_RdReadsEveryRegister : stopped.st = .stopped := by decide
theorem witness_RunningChecksumIsHidden : fresh.st ≠ .stopped := by decide
theorem witness_SampleValuesAreLittleEndian : (List.replicate 2352 1#8).length = 2352 := List.length_replicate

/-! ### Invariants and whole-machine rules -/

/-- A command that is executed, and one that is rejected. -/
theorem witness_StepKeepsTheInvariant :
    (∃ t, Inv (fresh.withPort [0x100000000000000000#72]) ∧
      step (fresh.withPort [0x100000000000000000#72]) = .next t ∧ t.firstValid = true) ∧
    ∃ t, Inv (fresh.withPort [0#72]) ∧ step (fresh.withPort [0#72]) = .next t ∧ t.firstValid = false :=
  ⟨⟨_, inv_withPort _ _ fresh_inv.inv, rfl, rfl⟩, ⟨_, inv_withPort _ _ fresh_inv.inv, rfl, rfl⟩⟩
theorem witness_StepKeepsWholeSectors : ∃ t,
    SectorCounted (full fresh) ∧ FarFromWrap (full fresh) ∧ step (full fresh) = .next t :=
  ⟨_, by unfold SectorCounted; rfl, by unfold FarFromWrap; decide, rfl⟩
theorem witness_StepNeverStops : Inv State.reset := reset_inv
theorem witness_OnlyTheMatrixWrites : (nextOf (exec .eos (holding [] fresh))).isSome = true := by decide
theorem witness_ConfigurationIsFrozen :
    (started.st ≠ .created ∧ (nextOf (step (started.withPort [0x090000000000000930#72]))).isSome = true) ∧
    fresh.st ≠ .created ∧ fresh.st ≠ .started ∧
    (nextOf (step (fresh.withPort [0x010000000000000001#72]))).isSome = true := by decide
theorem witness_TerminalStatesAreFinal :
    stopped.st = .stopped ∧ failed.st = .failed ∧ Instr.opcode .cancel ≠ .rd ∧
    (nextOf (step (failed.withPort [0x0A0000000000000000#72]))).isSome = true := by decide
theorem witness_ErrorIsWrittenOnce : ∃ t,
    Inv (failed.withPort [0x0A0000000000000000#72]) ∧
    (failed.withPort [0x0A0000000000000000#72]).err = some .cancelled ∧
    step (failed.withPort [0x0A0000000000000000#72]) = .next t := ⟨_, inv_withPort _ _ failed_inv, rfl, rfl⟩
/-- The fatal case and the case that is not. -/
theorem witness_RaisingAnErrorRecordsItOnly :
    (∃ t, fresh.err = none ∧ exec .cancel fresh = .next t ∧ t.err = some .cancelled) ∧
    ∃ t, (holding [] fresh).err = none ∧ exec .eos (holding [] fresh) = .next t ∧
      t.err = some .truncatedRange := ⟨⟨_, rfl, rfl, rfl⟩, ⟨_, rfl, rfl, rfl⟩⟩

end Sys2Proof.Tests
end

section
namespace Sys2Proof.Claims
open Sys2Proof.Machine

/-- Settles O6: it is `step_instr`, since `taken rest s` and `s.withPort rest` are one record update. -/
theorem stepRunsTheDecodedCommand : Obligations.StepRunsTheDecodedCommand := by
  unfold Obligations.StepRunsTheDecodedCommand
  intro s w rest i hport hdecode
  exact step_instr hport hdecode

end Sys2Proof.Claims
end

section
/-! SUPPORT. The invariant of 10_state.md R41 under each kind of state change: one lemma per kind, shared by the
commands that make it. -/

namespace Sys2Proof.Machine

variable {s t : State}

/-! ## What the invariant says of a single state -/

/-- The clauses of the invariant on the counters (10_state.md R41 (b), (c)), which only a drain changes. -/
structure Counted (s : State) : Prop where
  aligned : s.bytesConsumed.toNat % 16 = 0
  accurateRip : s.alg = .accurateRip → s.discFrameCounter * 2352#64 = s.bytesConsumed
  crc32 : s.alg = .crc32 → s.discFrameCounter = 0#64

theorem Inv.counted (h : Inv s) : Counted s :=
  ⟨h.consumed_aligned, h.accurateRip_counted, h.crc32_uncounted⟩

/-- The truncation flag is the one error that is not fatal (60_exceptions.md R241, R242). -/
theorem fatal_iff {e : TaskError} : e.fatal = true ↔ e ≠ .truncatedRange := by cases e <;> decide

/-- Before a terminal state no error is recorded. -/
theorem Inv.err_eq_none (h : Inv s) (hstop : s.st ≠ .stopped) (hfail : s.st ≠ .failed) : s.err = none := by
  cases he : s.err with
  | none => rfl
  | some e =>
    by_cases htr : e = .truncatedRange
    · exact absurd (h.truncated_stopped (htr ▸ he)) hstop
    · exact absurd (h.fatal_failed e he (fatal_iff.mpr htr)) hfail

/-- Outside `Stopped` the range is not known to be truncated. -/
theorem Inv.missing_eq_zero (h : Inv s) (hstop : s.st ≠ .stopped) : s.missing = 0#64 := by
  by_contra hm
  exact hstop (h.truncated_stopped (h.missing_iff.mp hm))

/-! ## The port and the answers are no part of the invariant -/

theorem Inv.outputs (h : Inv s) (words : List CmdWord) (answers : List Answer) :
    Inv { s with cmdPort := words, answers := answers } := { h with }

theorem Inv.withPort (h : Inv s) (words : List CmdWord) : Inv (s.withPort words) := h.outputs words s.answers

theorem Inv.respond (h : Inv s) (r : Response) (events : List Event) : Inv (s.respond r events) :=
  h.outputs s.cmdPort _

/-! ## Configuration and lifecycle changes -/

/-- `Created` takes any configuration: nothing was counted yet and no range is resolved. -/
theorem Inv.configure (h : Inv s) (hs : s.st = .created) (alg : Algorithm) (number count : Byte)
    (start length : Word64) :
    Inv { s with alg := alg, trackNumber := number, trackCount := count, frameStart := start,
                 frameLength := length } := by
  obtain ⟨-, -, hbytes, hcount, -, -⟩ := h.no_chunk (h.fresh (.inl hs))
  exact { h with
    accurateRip_counted := fun _ => by simp [hbytes, hcount]
    crc32_uncounted := fun _ => hcount
    resolved_length := fun hr => by simp [hs] at hr
    resolved_end := fun hr => by simp [hs] at hr
    started_unknown := fun hr => by simp [hs] at hr }

/-- A fatal error, raised before `Stopped`. -/
theorem Inv.fail (h : Inv s) (hs : s.st ≠ .stopped) {e : TaskError} (he : e.fatal = true) :
    Inv { s with err := some e, st := .failed } where
  level_le := h.level_le
  consumed_aligned := h.consumed_aligned
  accurateRip_counted := h.accurateRip_counted
  crc32_uncounted := h.crc32_uncounted
  fatal_failed := fun _ _ _ => rfl
  truncated_stopped := fun htr => absurd (Option.some.inj htr) (fatal_iff.mp he)
  failed_fatal := fun _ => ⟨e, rfl, he⟩
  fresh := fun hr => by simp at hr
  no_chunk := h.no_chunk
  resolved_length := fun hr => by simp at hr
  resolved_end := fun hr => by simp at hr
  missing_iff := by simp [h.missing_eq_zero hs, fatal_iff.mp he]
  unresolved_end := fun hr => by simp at hr
  started_unknown := fun hr => by simp at hr

/-- `START` with an unknown length. -/
theorem Inv.wait (h : Inv s) (hs : s.st = .created) (hlen : signed64 s.frameLength < 0) :
    Inv { s with st := .started } := by
  have herr : s.err = none := h.err_eq_none (by simp [hs]) (by simp [hs])
  exact { h with
    fatal_failed := fun e he => by simp [herr] at he
    truncated_stopped := fun he => by simp [herr] at he
    failed_fatal := fun hr => by simp at hr
    fresh := fun _ => h.fresh (.inl hs)
    resolved_length := fun hr => by simp at hr
    resolved_end := fun hr => by simp at hr
    unresolved_end := fun _ => h.unresolved_end (.inl hs)
    started_unknown := fun _ => hlen }

/-- The resolve step with a length that is not negative (43_session.md R198). -/
theorem Inv.resolve (h : Inv s) (hs : s.st = .created ∨ s.st = .started) {length : Word64}
    (hlen : 0 ≤ signed64 length) : Inv (State.resolve { s with frameLength := length }) := by
  have herr : s.err = none := h.err_eq_none (by rcases hs with hs | hs <;> simp [hs])
    (by rcases hs with hs | hs <;> simp [hs])
  exact { h with
    fatal_failed := fun e he => by simp [herr] at he
    truncated_stopped := fun he => by simp [herr] at he
    failed_fatal := fun hr => by simp at hr
    fresh := fun hr => by simp at hr
    resolved_length := fun _ => hlen
    resolved_end := fun _ => resolve_end { s with frameLength := length }
    unresolved_end := fun hr => by simp at hr
    started_unknown := fun hr => by simp at hr }

/-- The end of a stream whose range is whole. -/
theorem Inv.stop (h : Inv s) (hs : s.st = .running) : Inv { s with st := .stopped } := by
  have herr : s.err = none := h.err_eq_none (by simp [hs]) (by simp [hs])
  exact { h with
    fatal_failed := fun e he => by simp [herr] at he
    truncated_stopped := fun _ => rfl
    failed_fatal := fun hr => by simp at hr
    fresh := fun hr => by simp at hr
    resolved_length := fun _ => h.resolved_length (.inl hs)
    resolved_end := fun _ => h.resolved_end (.inl hs)
    unresolved_end := fun hr => by simp at hr
    started_unknown := fun hr => by simp at hr }

/-- The truncation flag, with the number of missing samples, in `Stopped`. -/
theorem Inv.flagTruncation (h : Inv s) (hs : s.st = .stopped) {missing : Word64} (hm : missing ≠ 0#64) :
    Inv { s with err := some .truncatedRange, missing := missing } :=
  { h with
    fatal_failed := fun e he hf => by cases he; cases hf
    truncated_stopped := fun _ => hs
    failed_fatal := fun hr => by simp [hs] at hr
    missing_iff := by simp [hm] }

/-- Samples are missing exactly when the last offset is not the end of the range (43_session.md R201). -/
theorem missingSamples_ne_zero (h : lastOffset s ≠ s.frameEnd) : missingSamples s ≠ 0#64 :=
  fun hz => h (sub_eq_zero.mp hz).symm

/-! ## The stream -/

/-- `t` holds the registers that no stream command writes as `s` holds them. -/
structure SameSession (s t : State) : Prop where
  alg : t.alg = s.alg
  frameStart : t.frameStart = s.frameStart
  frameLength : t.frameLength = s.frameLength
  frameEnd : t.frameEnd = s.frameEnd
  st : t.st = s.st
  err : t.err = s.err
  missing : t.missing = s.missing

/-- A state further on in the same stream meets the invariant when its FIFO and its counters do. -/
theorem Inv.of_sameSession (h : Inv s) (hs : s.st = .running) (hsame : SameSession s t)
    (hvalid : t.firstValid = true) (hlevel : t.level ≤ 2351) (hcount : Counted t) : Inv t := by
  obtain ⟨-, hstart, hlen, hend, hst, herr, hmiss⟩ := hsame
  have hrun : t.st = .running := hst.trans hs
  have hnone : t.err = none := herr.trans (h.err_eq_none (by simp [hs]) (by simp [hs]))
  exact {
    level_le := hlevel
    consumed_aligned := hcount.aligned
    accurateRip_counted := hcount.accurateRip
    crc32_uncounted := hcount.crc32
    fatal_failed := fun e he => by simp [hnone] at he
    truncated_stopped := fun he => by simp [hnone] at he
    failed_fatal := fun hr => by simp [hrun] at hr
    fresh := fun hr => by simp [hrun] at hr
    no_chunk := fun hv => by simp [hvalid] at hv
    resolved_length := fun _ => hlen ▸ h.resolved_length (.inl hs)
    resolved_end := fun _ => by rw [hend, hstart, hlen]; exact h.resolved_end (.inl hs)
    missing_iff := by rw [hmiss, herr]; exact h.missing_iff
    unresolved_end := fun hr => by simp [hrun] at hr
    started_unknown := fun hr => by simp [hrun] at hr }

/-- The counters' clauses pass to a state with the same algorithm and counters. -/
theorem Counted.of_eq (h : Counted s) (halg : t.alg = s.alg) (hbytes : t.bytesConsumed = s.bytesConsumed)
    (hcount : t.discFrameCounter = s.discFrameCounter) : Counted t :=
  ⟨by rw [hbytes]; exact h.aligned, by rw [halg, hbytes, hcount]; exact h.accurateRip,
    by rw [halg, hcount]; exact h.crc32⟩

/-- A drain keeps the counters in step: 16 divides 2352 and 2^64, and AccurateRip counts the sector. -/
theorem Counted.drainSector (h : Counted s) : Counted (drainSector s) where
  aligned := by
    have := h.aligned
    rw [drainSector_bytesConsumed, BitVec.toNat_add, BitVec.toNat_ofNat]
    omega
  accurateRip ha := by
    rw [drainSector_alg] at ha
    simp [ha, BitVec.add_mul, h.accurateRip ha]
  crc32 ha := by
    rw [drainSector_alg] at ha
    simp [ha, h.crc32 ha]

theorem Inv.chunked (h : Inv s) (hs : s.st = .running) (offset : Word64) : Inv (chunked offset s) :=
  h.of_sameSession hs (by constructor <;> simp) (by simp) (by simpa [State.level] using h.level_le)
    (h.counted.of_eq (by simp) (by simp) (by simp))

theorem Inv.pushed (h : Inv s) (hs : s.st = .running) (hv : s.firstValid = true) (hl : s.level < 2351)
    (b : Byte) : Inv (pushed b s) :=
  h.of_sameSession hs (by constructor <;> simp) (by simp [hv]) (by simpa using hl)
    (h.counted.of_eq (by simp) (by simp) (by simp))

theorem Inv.completed (h : Inv s) (hs : s.st = .running) (hv : s.firstValid = true) (b : Byte) :
    Inv (completed b s) :=
  (h.of_sameSession (t := drainSector (Machine.pushed b s)) hs (by constructor <;> simp) (by simp [hv])
    (by simp) (h.counted.of_eq (by simp) (by simp) (by simp)).drainSector).respond _ _

/-! ## Every command and every step -/

theorem exec_keeps_inv {i : Instr} (h : Inv s) (he : exec i s = .next t) : Inv t := by
  have hrej (r : Reason) : Inv (rejectedState r s) := h.respond _ _
  cases i
  case setalg =>
    obtain rfl | ⟨hs, rfl⟩ := execSetalg_next he
    · exact hrej _
    · exact (h.configure hs _ _ _ _ _).respond _ _
  case settrk =>
    obtain rfl | ⟨hs, rfl⟩ := execSettrk_next he
    · exact hrej _
    · exact (h.configure hs _ _ _ _ _).respond _ _
  case setstart =>
    obtain rfl | ⟨hs, rfl⟩ := execSetstart_next he
    · exact hrej _
    · exact (h.configure hs _ _ _ _ _).respond _ _
  case setlen =>
    obtain rfl | ⟨hs, rfl⟩ := execSetlen_next he
    · exact hrej _
    · exact (h.configure hs _ _ _ _ _).respond _ _
  case notfound =>
    obtain rfl | ⟨hs, rfl⟩ := execNotfound_next he
    · exact hrej _
    · exact (h.fail (by simp [hs]) rfl).respond _ _
  case start =>
    obtain rfl | ⟨hs, hlen, rfl⟩ | ⟨hs, hlen, rfl⟩ := execStart_next he
    · exact hrej _
    · exact (h.wait hs hlen).respond _ _
    · exact (h.resolve (.inl hs) hlen).respond _ _
  case duration =>
    obtain rfl | ⟨-, -, rfl⟩ | ⟨hs, n, hn, rfl⟩ := execDuration_next he
    · exact hrej _
    · exact hrej _
    · obtain ⟨-, -, -, -, hlen⟩ := durationLength_some hn
      exact (h.resolve (.inr hs) hlen).respond _ _
  case cancel =>
    obtain rfl | ⟨hs, rfl⟩ := execCancel_next he
    · exact hrej _
    · exact (h.fail (by rcases hs with hs | hs | hs <;> simp [hs]) rfl).respond _ _
  case chunk offset =>
    obtain rfl | ⟨hs, rfl⟩ := execChunk_next he
    · exact hrej _
    · exact h.chunked hs offset
  case byte b =>
    obtain rfl | ⟨hs, hv, hl, rfl⟩ | ⟨hs, hv, -, rfl⟩ := execByte_next he
    · exact hrej _
    · exact (h.pushed hs hv hl b).respond _ _
    · exact h.completed hs hv b
  case eos =>
    obtain rfl | ⟨hs, -, rfl⟩ | ⟨hs, -, -, rfl⟩ | ⟨hs, -, -, hne, rfl⟩ | ⟨hs, -, -, -, rfl⟩ := execEos_next he
    · exact hrej _
    · exact (h.fail (by simp [hs]) rfl).respond _ _
    · exact (h.fail (by simp [hs]) rfl).respond _ _
    · exact ((h.stop hs).flagTruncation rfl (missingSamples_ne_zero hne)).respond _ _
    · exact (h.stop hs).respond _ _
  case rd reg =>
    cases (execRd_eq reg).symm.trans he
    exact h.respond _ _

theorem step_keeps_inv (h : Inv s) (hstep : step s = .next t) : Inv t := by
  obtain ⟨-, rfl⟩ | ⟨w, rest, -, ⟨i, -, he⟩ | ⟨-, r, rfl⟩⟩ := step_next hstep
  · exact h
  · exact exec_keeps_inv (h.withPort rest) he
  · exact (h.withPort rest).respond _ _

end Sys2Proof.Machine
end

section
namespace Sys2Proof.Claims
open Sys2Proof.Machine

/-- Settles O52: idle steps and rejections change no register, and every command keeps the invariant. -/
theorem stepKeepsTheInvariant : Obligations.StepKeepsTheInvariant := fun _ _ => step_keeps_inv

/-- Settles O55, command by command: each inversion lemma names every register its command can write. -/
theorem onlyTheMatrixWrites : Obligations.OnlyTheMatrixWrites := by
  intro i s t h
  cases i
  case setalg => obtain rfl | ⟨_, rfl⟩ := execSetalg_next h <;> simp [Instr.opcode]
  case settrk => obtain rfl | ⟨_, rfl⟩ := execSettrk_next h <;> simp [Instr.opcode]
  case setstart => obtain rfl | ⟨_, rfl⟩ := execSetstart_next h <;> simp [Instr.opcode]
  case setlen => obtain rfl | ⟨_, rfl⟩ := execSetlen_next h <;> simp [Instr.opcode]
  case notfound => obtain rfl | ⟨_, rfl⟩ := execNotfound_next h <;> simp [Instr.opcode]
  case start =>
    obtain rfl | ⟨_, _, rfl⟩ | ⟨_, _, rfl⟩ := execStart_next h <;> simp [Instr.opcode]
  case duration =>
    obtain rfl | ⟨_, _, rfl⟩ | ⟨_, _, _, rfl⟩ := execDuration_next h <;> simp [Instr.opcode]
  case cancel => obtain rfl | ⟨_, rfl⟩ := execCancel_next h <;> simp [Instr.opcode]
  case chunk => obtain rfl | ⟨_, rfl⟩ := execChunk_next h <;> simp [Instr.opcode]
  case byte =>
    obtain rfl | ⟨_, _, _, rfl⟩ | ⟨_, _, _, rfl⟩ := execByte_next h <;> simp [Instr.opcode]
  case eos =>
    obtain rfl | ⟨_, _, rfl⟩ | ⟨_, _, _, rfl⟩ | ⟨_, _, _, _, rfl⟩ | ⟨_, _, _, _, rfl⟩ := execEos_next h <;>
      simp [Instr.opcode]
  case rd reg =>
    cases (execRd_eq reg).symm.trans h
    simp

/-- A command leaves `bytesConsumed` or counts one sector (40_frame_assembler.md R123). -/
theorem exec_bytesConsumed {i : Instr} {s t : State} (h : exec i s = .next t) :
    t.bytesConsumed = s.bytesConsumed ∨ t.bytesConsumed = s.bytesConsumed + 2352#64 := by
  by_cases hsame : t.bytesConsumed = s.bytesConsumed
  · exact .inl hsame
  obtain ⟨-, -, -, -, -, -, -, -, -, hbyte, -⟩ := onlyTheMatrixWrites i s t h
  have hop := hbyte hsame
  cases i <;> cases hop
  obtain rfl | ⟨-, -, -, rfl⟩ | ⟨-, -, -, rfl⟩ := execByte_next h
  · exact .inl rfl
  · exact .inl (by simp)
  · exact .inr (by simp)

theorem step_bytesConsumed {s t : State} (h : step s = .next t) :
    t.bytesConsumed = s.bytesConsumed ∨ t.bytesConsumed = s.bytesConsumed + 2352#64 := by
  obtain ⟨-, rfl⟩ | ⟨w, rest, -, ⟨i, -, he⟩ | ⟨-, r, rfl⟩⟩ := step_next h
  · exact .inl rfl
  · simpa using exec_bytesConsumed he
  · exact .inl rfl

/-- Settles O53: a step counts no byte or one whole sector, and the premise shuts out the wrap. -/
theorem stepKeepsWholeSectors : Obligations.StepKeepsWholeSectors := by
  intro s t hcounted hfar hstep
  unfold SectorCounted at *
  obtain hsame | hsector := step_bytesConsumed hstep
  · rwa [hsame]
  · have hsum : (s.bytesConsumed + 2352#64).toNat = s.bytesConsumed.toNat + 2352 := by
      rw [BitVec.toNat_add]
      exact Nat.mod_eq_of_lt hfar
    rw [hsector, hsum]
    omega

/-- Settles O1, by evaluating the reset state. -/
theorem resetHoldsTheTable : Obligations.ResetHoldsTheTable := by
  unfold Obligations.ResetHoldsTheTable
  decide

/-- Settles O51: each clause is a closed fact about the reset table. -/
theorem resetMeetsTheInvariant : Obligations.ResetMeetsTheInvariant :=
  ⟨by constructor <;> decide, rfl⟩

end Sys2Proof.Claims
end

section
namespace Sys2Proof.Claims
open Sys2Proof.Machine

/-- Settles O24: the push finds no room, so `BYTE` ends in the model's fault. -/
theorem byteBeyondCapacityFaults : Obligations.ByteBeyondCapacityFaults :=
  fun _ b hrunning hvalid hfull => execByte_beyond b hrunning hvalid hfull

end Sys2Proof.Claims
end

section
/-! SUPPORT. The port is no part of what a command does: the meaning of a command commutes with a change of the
words that wait (20_memory.md R75). -/

namespace Sys2Proof.Machine

variable {s t : State}

@[simp] theorem State.withPort_level (words : List CmdWord) (s : State) : (s.withPort words).level = s.level := rfl

/-- A result with the words of its next state's port replaced; a fault or a refusal has no port. -/
def Result.withPort (words : List CmdWord) : Result → Result
  | .next t => .next (t.withPort words)
  | .fault f => .fault f
  | .refused r => .refused r

@[simp] theorem Result.withPort_next (words : List CmdWord) :
    Result.withPort words (.next t) = .next (t.withPort words) := rfl

theorem accept_withPort (words : List CmdWord) (evs : List Event) (s : State) :
    accept evs (s.withPort words) = Result.withPort words (accept evs s) := rfl

/-- The legality check does not look at the port. -/
theorem whenLegal_withPort (op : Opcode) (words : List CmdWord) {run run' : Result}
    (h : run' = Result.withPort words run) :
    whenLegal op (s.withPort words) run' = Result.withPort words (whenLegal op s run) := by
  cases hl : legalIn op s.st
  · rw [whenLegal_of_illegal hl, whenLegal_of_illegal (s := s.withPort words) hl]
    rfl
  · rw [whenLegal_of_legal hl, whenLegal_of_legal (s := s.withPort words) hl, h]

theorem execStart_withPort (words : List CmdWord) (s : State) :
    execStart (s.withPort words) = Result.withPort words (execStart s) := by
  apply whenLegal_withPort
  rw [show lengthUnknown (s.withPort words) = lengthUnknown s from rfl]
  cases lengthUnknown s <;> rfl

theorem execDuration_withPort (total : Word64) (words : List CmdWord) (s : State) :
    execDuration total (s.withPort words) = Result.withPort words (execDuration total s) := by
  apply whenLegal_withPort
  rw [show durationLength total (s.withPort words) = durationLength total s from rfl]
  cases durationLength total s <;> rfl

theorem finalize_withPort (words : List CmdWord) (s : State) :
    finalize (s.withPort words) = Result.withPort words (finalize s) := by
  unfold finalize
  rw [show rangeTruncated (s.withPort words) = rangeTruncated s from rfl]
  cases rangeTruncated s <;> rfl

theorem execEos_withPort (words : List CmdWord) (s : State) :
    execEos (s.withPort words) = Result.withPort words (execEos s) := by
  apply whenLegal_withPort
  rw [finalize_withPort, State.withPort_firstValid,
    show sampleComplete (s.withPort words) = sampleComplete s from rfl]
  cases s.firstValid
  · rfl
  · cases sampleComplete s <;> rfl

theorem latchFirst_withPort (offset : Word64) (words : List CmdWord) (s : State) :
    (s.withPort words).latchFirst offset = (s.latchFirst offset).withPort words := by
  unfold State.latchFirst
  rw [State.withPort_firstValid]
  cases s.firstValid <;> rfl

theorem execChunk_withPort (offset : Word64) (words : List CmdWord) (s : State) :
    execChunk offset (s.withPort words) = Result.withPort words (execChunk offset s) := by
  apply whenLegal_withPort
  rw [latchFirst_withPort]
  rfl

theorem countSample_withPort (words : List CmdWord) (s : State) :
    (s.withPort words).countSample = s.countSample.withPort words := by
  unfold State.countSample
  rw [show sampleComplete (s.withPort words) = sampleComplete s from rfl]
  cases sampleComplete s <;> rfl

theorem arAccumulate_withPort (n : Nat) (sector : List Byte) (words : List CmdWord) (s : State) :
    arAccumulate n sector (s.withPort words) = (arAccumulate n sector s).withPort words := by
  unfold arAccumulate
  rw [show firstTrack (s.withPort words) = firstTrack s from rfl,
    show lastTrack (s.withPort words) = lastTrack s from rfl,
    show inTail n (s.withPort words) = inTail n s from rfl]
  split_ifs <;> rfl

theorem updateSector_withPort (sector : List Byte) (words : List CmdWord) (s : State) :
    updateSector sector (s.withPort words) = (updateSector sector s).withPort words := by
  unfold updateSector
  rw [State.withPort_alg]
  cases s.alg
  case crc32 => rfl
  case accurateRip => exact arAccumulate_withPort _ sector words s.countSector

theorem drainSector_withPort (words : List CmdWord) (s : State) :
    drainSector (s.withPort words) = (drainSector s).withPort words := by
  change (updateSector s.fifo (s.clearFifo.withPort words)).consumeSector = _
  rw [updateSector_withPort]
  rfl

theorem progressEvent_withPort (words : List CmdWord) (s : State) :
    progressEvent (s.withPort words) = progressEvent s := rfl

theorem afterPush_withPort (words : List CmdWord) (s : State) :
    afterPush (s.withPort words) = Result.withPort words (afterPush s) := by
  unfold afterPush
  rw [countSample_withPort, drainSector_withPort,
    show sectorComplete (s.countSample.withPort words) = sectorComplete s.countSample from rfl]
  by_cases hfull : sectorComplete s.countSample = true
  · rw [if_pos hfull, if_pos hfull, progressEvent_withPort, accept_withPort]
  · rw [if_neg hfull, if_neg hfull, accept_withPort]

theorem fifoPush_withPort (b : Byte) (words : List CmdWord) (s : State) :
    fifoPush b (s.withPort words) = (fifoPush b s).map (State.withPort words) := by
  unfold fifoPush
  rw [State.withPort_level]
  split <;> rfl

theorem execByte_withPort (b : Byte) (words : List CmdWord) (s : State) :
    execByte b (s.withPort words) = Result.withPort words (execByte b s) := by
  apply whenLegal_withPort
  rw [State.withPort_firstValid, fifoPush_withPort]
  cases s.firstValid
  case false => rfl
  case true =>
    cases fifoPush b s with
    | none => rfl
    | some u => exact afterPush_withPort words u

/-- A command does the same whatever waits behind it, and leaves it waiting (20_memory.md R75). -/
theorem exec_withPort (i : Instr) (words : List CmdWord) (s : State) :
    exec i (s.withPort words) = Result.withPort words (exec i s) := by
  cases i
  case start => exact execStart_withPort words s
  case duration total => exact execDuration_withPort total words s
  case chunk offset => exact execChunk_withPort offset words s
  case byte b => exact execByte_withPort b words s
  case eos => exact execEos_withPort words s
  case rd reg =>
    simp only [exec, execRd_eq]
    rfl
  all_goals exact whenLegal_withPort _ words rfl

/-! ## Words and commands -/

/-- The reserved operand bits of a command are zero (30_encoding.md R95). -/
theorem operand_reserved (i : Instr) : i.operand &&& i.opcode.reservedMask = 0#64 := by
  cases i
  case setalg alg => cases alg <;> rfl
  case settrk n c => exact Laws.TableRow.narrow_operand 16 (c ++ n) 0xFFFFFFFFFFFF0000#64 (by decide)
  case byte b => exact Laws.TableRow.narrow_operand 8 b 0xFFFFFFFFFFFFFF00#64 (by decide)
  case rd reg => exact Laws.TableRow.narrow_operand 8 reg 0xFFFFFFFFFFFFFF00#64 (by decide)
  all_goals simp [Instr.opcode, Opcode.reservedMask, Instr.operand]

/-- A byte zero-extended to an operand field is its low byte. -/
theorem extractLsb'_setWidth_byte (b : Byte) : (b.setWidth 64 : Word64).extractLsb' 0 8 = b := by
  ext k hk
  have : k < 64 := by omega
  simp [hk, this]

/-- The operand field gives back the operands it was made of (30_encoding.md R94). -/
theorem build_operand (i : Instr) : i.opcode.build i.operand = i := by
  cases i
  case setalg alg => cases alg <;> rfl
  case settrk n c =>
    have hn : ((c ++ n).setWidth 64 : Word64).extractLsb' 0 8 = n := by
      ext k hk
      simp only [BitVec.getElem_extractLsb', BitVec.getLsbD_setWidth, BitVec.getLsbD_append]
      simp [hk, show k < 64 by omega]
    have hc : ((c ++ n).setWidth 64 : Word64).extractLsb' 8 8 = c := by
      ext k hk
      simp only [BitVec.getElem_extractLsb', BitVec.getLsbD_setWidth, BitVec.getLsbD_append]
      simp [hk, show 8 + k < 64 by omega]
    simp only [Instr.opcode, Instr.operand, Opcode.build]
    rw [hn, hc]
  case byte b => exact congrArg Instr.byte (extractLsb'_setWidth_byte b)
  case rd reg => exact congrArg Instr.rd (extractLsb'_setWidth_byte reg)
  all_goals rfl

/-- A command is read back from its own word (30_encoding.md R90 to R95). -/
theorem decode_encode (i : Instr) : decode (encode i) = .instr i := by
  rw [encode, decode_cmdWord, if_pos (operand_reserved i), build_operand]

/-- A step with a command's word next on the port is that command, the other words left waiting. -/
theorem step_present_encode (i : Instr) (words : List CmdWord) (h : s.cmdPort = []) :
    step (s.present (encode i :: words)) = Result.withPort words (exec i s) := by
  have hport : (s.present (encode i :: words)).cmdPort = encode i :: words := by
    simp [State.present, h]
  rw [step_instr hport (decode_encode i)]
  exact exec_withPort i words s

/-- A run begins with one step. -/
theorem core_run_succ (k : Nat) (s : State) :
    core.run (k + 1) s = match step s with
      | .next t => core.run k t
      | .fault f => .fault f
      | .refused r => .refused r := by
  simp only [Host.Core.run]
  cases h : step s <;> rw [show core.step s = _ from h]

end Sys2Proof.Machine
end

section
namespace Sys2Proof.Claims
open Sys2Proof.Machine

/-- Settles O11, by induction on the commands: a step takes the front word, and the words behind it do not touch
what the command does. -/
theorem runningWordsIsExecutingCommands : Obligations.RunningWordsIsExecutingCommands := by
  intro is
  induction is with
  | nil =>
    intro s hport
    have hsame : s.present [] = s := by rw [State.present, List.append_nil]; rfl
    exact congrArg Host.Outcome.next hsame
  | cons i is ih =>
    intro s hport
    rw [List.length_cons, List.map_cons, core_run_succ, step_present_encode i _ hport, runAll]
    cases hexec : exec i s with
    | next t =>
      have htport : t.cmdPort = [] := (exec_next hexec).2.trans hport
      have hpresent : t.withPort (is.map encode) = t.present (is.map encode) := by
        rw [State.present, htport, List.nil_append]
      rw [Result.withPort_next, hpresent]
      exact ih t htport
    | fault f => rfl
    | refused r => rfl

end Sys2Proof.Claims
end

section
/-! SUPPORT. What a stream leaves in the FIFO and in `bytesConsumed` (20_memory.md R64, 40_frame_assembler.md R125). -/

namespace Sys2Proof.Machine

/-- The state `t` that follows from `s` when the FIFO takes these bytes: whole sectors are counted, and the bytes
beyond the last one are held, in order (20_memory.md R64). -/
structure TailHeld (s t : State) (bytes : List Byte) : Prop where
  fifo : t.fifo = (s.fifo ++ bytes).drop (2352 * ((s.fifo ++ bytes).length / 2352))
  consumed : t.bytesConsumed =
    s.bytesConsumed + BitVec.ofNat 64 (2352 * ((s.fifo ++ bytes).length / 2352))

variable {s t u : State} {bytes : List Byte}

/-- Below a sector nothing is drained. -/
theorem TailHeld.refl (h : s.level ≤ 2351) : TailHeld s s [] := by
  have hnone : s.fifo.length / 2352 = 0 := Nat.div_eq_of_lt (Nat.lt_succ_of_le h)
  constructor <;> simp [hnone]

/-- A byte may stand in the FIFO or be still to come. -/
theorem TailHeld.of_append {held : List Byte} (h : TailHeld u t bytes) (hfifo : u.fifo = s.fifo ++ held)
    (hconsumed : u.bytesConsumed = s.bytesConsumed) : TailHeld s t (held ++ bytes) := by
  obtain ⟨htail, hcount⟩ := h
  rw [hfifo, List.append_assoc] at htail hcount
  exact ⟨htail, hconsumed ▸ hcount⟩

/-- A drained sector is one sector more in front of those that follow. -/
theorem TailHeld.of_drain {b : Byte} (h : TailHeld u t bytes) (hlevel : s.level = 2351) (hfifo : u.fifo = [])
    (hconsumed : u.bytesConsumed = s.bytesConsumed + 2352#64) : TailHeld s t (b :: bytes) := by
  obtain ⟨htail, hcount⟩ := h
  rw [hfifo, List.nil_append] at htail hcount
  have hsector : (s.fifo ++ [b]).length = 2352 := by simpa [State.level] using hlevel
  have hbytes : 2352 * ((s.fifo ++ b :: bytes).length / 2352) = 2352 + 2352 * (bytes.length / 2352) := by
    rw [List.append_cons, List.length_append, hsector]
    omega
  constructor
  · rw [hbytes, List.append_cons, ← List.drop_drop, ← hsector, List.drop_left, hsector, htail]
  · rw [hbytes, hcount, hconsumed, BitVec.ofNat_add, BitVec.add_assoc]

/-- Every stream, from every state that takes one. -/
theorem runAll_stream_tailHeld {r : List Instr} (hs : Streaming s) (hr : ∀ i ∈ r, isStream i = true) :
    ∃ t, runAll r s = .next t ∧ TailHeld s t (dataOf r) := by
  obtain ⟨t, hrun, -, htail⟩ := runAll_stream_induct TailHeld
    (nil := fun s hs => .refl hs.level_le)
    (chunk := fun s offset t bytes _ h => h.of_append (held := []) (by simp) (by simp))
    (below := fun s b t bytes _ _ h => h.of_append (held := [b]) (by simp) (by simp))
    (full := fun s b t bytes _ hl h => h.of_drain hl (by simp) (by simp))
    r s hs hr
  exact ⟨t, hrun, htail⟩

end Sys2Proof.Machine
end

section
namespace Sys2Proof.Claims
open Sys2Proof.Machine

/-- Settles O30: `CHUNK` opens the stream and leaves the FIFO, and the rest is the induction over a stream. -/
theorem fifoHoldsTheTail : Obligations.FifoHoldsTheTail := by
  intro s offset r hrunning hlevel hr
  obtain ⟨t, hrun, htail⟩ := runAll_stream_tailHeld (chunked_streaming offset hrunning hlevel) hr
  have hwhole : TailHeld s t (dataOf r) := htail.of_append (held := []) (by simp) (by simp)
  exact ⟨t, (runAll_cons r (execChunk_running offset hrunning)).trans hrun, hwhole.fifo, hwhole.consumed⟩

end Sys2Proof.Claims
end

section
/-! SUPPORT. The sample values of a run of bytes, and the halves of a sample value (20_memory.md R65, R66). -/

namespace Sys2Proof.Machine

/-- Every four bytes make one sample value (20_memory.md R65). -/
theorem length_samplesOf : ∀ bytes : List Byte, (samplesOf bytes).length = bytes.length / 4
  | [] | [_] | [_, _] | [_, _, _] => by simp [samplesOf]
  | _ :: _ :: _ :: _ :: rest => by
    simp only [samplesOf, List.length_cons, length_samplesOf rest]
    omega

/-- Sample value `i` is made of the bytes `4 i` to `4 i + 3` (20_memory.md R65). -/
theorem samplesOf_getElem? : ∀ (bytes : List Byte) (i : Nat), 4 * i + 3 < bytes.length →
    (samplesOf bytes)[i]? = some (le32 (sectorByte bytes (4 * i)) (sectorByte bytes (4 * i + 1))
      (sectorByte bytes (4 * i + 2)) (sectorByte bytes (4 * i + 3)))
  | [], _, h | [_], _, h | [_, _], _, h | [_, _, _], _, h => by simp at h
  | _ :: _ :: _ :: _ :: _, 0, _ => rfl
  | _ :: _ :: _ :: _ :: rest, i + 1, h =>
    samplesOf_getElem? rest i (by simp only [List.length_cons] at h; omega)

/-- The low half of a sample value (20_memory.md R66). -/
theorem firstHalf_le32_toNat (b0 b1 b2 b3 : Byte) :
    (firstHalf (le32 b0 b1 b2 b3)).toNat = b0.toNat + 2 ^ 8 * b1.toNat := by
  have h0 := b0.isLt
  have h1 := b1.isLt
  rw [firstHalf, BitVec.extractLsb'_toNat, le32_toNat, Nat.shiftRight_zero]
  omega

/-- The high half of a sample value (20_memory.md R66). -/
theorem secondHalf_le32_toNat (b0 b1 b2 b3 : Byte) :
    (secondHalf (le32 b0 b1 b2 b3)).toNat = b2.toNat + 2 ^ 8 * b3.toNat := by
  have h0 := b0.isLt
  have h1 := b1.isLt
  have h2 := b2.isLt
  have h3 := b3.isLt
  rw [secondHalf, BitVec.extractLsb'_toNat, le32_toNat, Nat.shiftRight_eq_div_pow]
  omega

end Sys2Proof.Machine
end

section
namespace Sys2Proof.Claims
open Sys2Proof.Machine

/-- Settles O50: the sample values are read off four bytes at a time, and each is the number its bytes make. -/
theorem sampleValuesAreLittleEndian : Obligations.SampleValuesAreLittleEndian := by
  refine ⟨fun sector hlen => ⟨?_, fun i hi => ?_⟩, fun b0 b1 b2 b3 => ?_⟩
  · rw [length_samplesOf, hlen]
  · rw [samplesOf_getElem? sector i (by omega), Option.map_some, le32_toNat]
    rfl
  · exact ⟨firstHalf_le32_toNat b0 b1 b2 b3, secondHalf_le32_toNat b0 b1 b2 b3⟩

/-- A command leaves the configuration that `Created` fixed, and past `Started` the resolved range: it is illegal
here, or the access matrix (10_state.md R42) gives it no such register. -/
theorem exec_keeps_configuration {i : Instr} {s t : State} (hs : s.st ≠ .created) (h : exec i s = .next t) :
    t.alg = s.alg ∧ t.trackNumber = s.trackNumber ∧ t.trackCount = s.trackCount ∧
    t.frameStart = s.frameStart ∧
    (s.st ≠ .started → t.frameLength = s.frameLength ∧ t.frameEnd = s.frameEnd) := by
  cases hlegal : legalIn i.opcode s.st
  · cases (exec_illegal hlegal).symm.trans h
    exact ⟨rfl, rfl, rfl, rfl, fun _ => ⟨rfl, rfl⟩⟩
  have hnot {ops : List Opcode} (hops : ∀ op ∈ ops, legalIn op s.st = false) : i.opcode ∉ ops :=
    fun hmem => by simp [hops _ hmem] at hlegal
  have hconfig : i.opcode ∉ [.setalg, .settrk, .setstart, .setlen, .start] := hnot (by simpa [legalIn] using hs)
  simp only [List.mem_cons, List.not_mem_nil, or_false, not_or] at hconfig
  obtain ⟨hsetalg, hsettrk, hsetstart, hsetlen, hstart⟩ := hconfig
  obtain ⟨-, -, -, halg, htrack, hframeStart, hlength, hend, -⟩ := onlyTheMatrixWrites i s t h
  refine ⟨not_imp_comm.mp halg hsetalg, not_imp_comm.mp (fun hne => htrack (.inl hne)) hsettrk,
    not_imp_comm.mp (fun hne => htrack (.inr hne)) hsettrk, not_imp_comm.mp hframeStart hsetstart, fun hstarted => ?_⟩
  have hduration : i.opcode ∉ [.duration] := hnot (by simpa [legalIn] using hstarted)
  rw [List.mem_singleton] at hduration
  exact ⟨not_imp_comm.mp hlength (by simp [hsetlen, hduration]), not_imp_comm.mp hend (by simp [hstart, hduration])⟩

/-- Settles O56: an idle step and a rejected word write no register, and a command keeps the configuration. -/
theorem configurationIsFrozen : Obligations.ConfigurationIsFrozen := by
  intro s t hs hstep
  obtain ⟨-, rfl⟩ | ⟨w, rest, -, ⟨i, -, hexec⟩ | ⟨-, r, rfl⟩⟩ := step_next hstep
  · exact ⟨rfl, rfl, rfl, rfl, fun _ => ⟨rfl, rfl⟩⟩
  · exact exec_keeps_configuration (s := s.withPort rest) hs hexec
  · exact ⟨rfl, rfl, rfl, rfl, fun _ => ⟨rfl, rfl⟩⟩

end Sys2Proof.Claims
end

section
/-! SUPPORT. The decoder and the encoder against the fields of a word (30_encoding.md R90 to R96). -/

namespace Sys2Proof

/-! ## The fields of a word -/

/-- A word has one opcode field and one operand field. -/
theorem cmdWord_inj {c d : Byte} {x y : Word64} : cmdWord c x = cmdWord d y ↔ c = d ∧ x = y := by
  refine ⟨fun h => ⟨?_, ?_⟩, fun ⟨hc, hx⟩ => by rw [hc, hx]⟩
  · simpa using congrArg opcodeField h
  · simpa using congrArg operandField h

/-- The decoder reads a command exactly from its opcode over an operand with the reserved bits zero. -/
theorem decode_eq_instr_iff {w : CmdWord} {i : Instr} :
    decode w = .instr i ↔
      ∃ op : Opcode, opcodeField w = op.code ∧ operandField w &&& op.reservedMask = 0#64 ∧
        op.build (operandField w) = i := by
  constructor
  · intro h
    unfold decode at h
    cases hop : Opcode.ofCode (opcodeField w) with
    | none => simp [hop] at h
    | some op =>
      simp only [hop] at h
      split at h
      · next hx => exact ⟨op, (code_of_ofCode _ _ hop).symm, hx, Decoded.instr.inj h⟩
      · cases h
  · rintro ⟨op, hcode, hx, rfl⟩
    rw [← cmdWord_fields w, hcode, decode_cmdWord, operandField_cmdWord, if_pos hx]

/-! ## The operand field -/

/-- A value clear of a mask of the bits from `k` up is its low `k` bits, zero-extended. -/
theorem setWidth_extractLsb'_of_and_mask (k : Nat) {x mask : Word64}
    (hmask : ∀ i, i < 64 → mask.getLsbD i = decide (k ≤ i)) (h : x &&& mask = 0#64) :
    ((x.extractLsb' 0 k).setWidth 64 : Word64) = x := by
  have hhigh : x.toNat / 2 ^ k = 0 := by
    rw [← Nat.shiftRight_eq_div_pow, ← BitVec.toNat_ushiftRight, (Machine.and_high_mask k x mask hmask).mp h,
      BitVec.toNat_zero]
  have hlow : x.toNat % 2 ^ k = x.toNat := Nat.mod_eq_of_lt (Nat.lt_of_div_eq_zero (by positivity) hhigh)
  apply BitVec.eq_of_toNat_eq
  rw [BitVec.toNat_setWidth, BitVec.extractLsb'_toNat, Nat.shiftRight_zero, hlow, Nat.mod_eq_of_lt x.isLt]

@[simp] theorem algorithm_code_ofCode (c : BitVec 1) : (Algorithm.ofCode c).code = c := by
  revert c
  decide

/-- The operand of the command an operand field stands for is that field, when its reserved bits are zero
(R94, R95). -/
theorem operand_build (op : Opcode) {x : Word64} (h : x &&& op.reservedMask = 0#64) :
    (op.build x).operand = x := by
  cases op
  case setalg =>
    simp only [Opcode.build, Instr.operand, algorithm_code_ofCode]
    exact setWidth_extractLsb'_of_and_mask 1 (by decide) h
  case settrk =>
    simp only [Opcode.build, Instr.operand]
    rw [BitVec.extractLsb'_append_extractLsb'_eq_extractLsb' (by rfl)]
    exact setWidth_extractLsb'_of_and_mask 16 (by decide) h
  case byte => exact setWidth_extractLsb'_of_and_mask 8 (by decide) h
  case rd => exact setWidth_extractLsb'_of_and_mask 8 (by decide) h
  case setstart | setlen | duration | chunk => rfl
  case notfound | start | cancel | eos => exact h.symm.trans BitVec.and_allOnes

/-! ## The opcode table -/

/-- A word matches a row exactly when it has the row's opcode and no reserved operand bit. -/
theorem and_tableMask_eq_iff (op : Opcode) (w : CmdWord) :
    w &&& op.tableMask = op.tableMatch ↔
      opcodeField w = op.code ∧ operandField w &&& op.reservedMask = 0#64 := by
  have hmasked : w &&& op.tableMask =
      cmdWord (opcodeField w) (operandField w &&& op.reservedMask) := by
    calc w &&& op.tableMask
      _ = cmdWord (opcodeField w) (operandField w) &&& op.tableMask := by rw [cmdWord_fields]
      _ = cmdWord (opcodeField w &&& 0xFF#8) (operandField w &&& op.reservedMask) :=
        Laws.TableRow.cmdWord_and ..
      _ = cmdWord (opcodeField w) (operandField w &&& op.reservedMask) := by
        rw [show 0xFF#8 = BitVec.allOnes 8 from rfl, BitVec.and_allOnes]
  rw [hmasked, Opcode.tableMatch, cmdWord_inj]

/-- The opcodes in the order of spec/opcode_table.json. -/
def Opcode.all : List Opcode :=
  [.setalg, .settrk, .setstart, .setlen, .notfound, .start, .duration, .cancel, .chunk, .byte, .eos, .rd]

theorem Opcode.mem_all (op : Opcode) : op ∈ Opcode.all := by cases op <;> decide

/-- The rows as the statements write them are the model's own rows. -/
theorem opcodeTable_eq_rows :
    Claims.opcodeTable = Opcode.all.map fun op => (op.tableMask, op.tableMatch) := by decide

/-- No two commands share an opcode. -/
theorem nodup_codes : (Opcode.all.map Opcode.code).Nodup := by decide

/-! ## Reserved opcodes -/

/-- The opcode map gives no command to a code that no opcode has. -/
theorem ofCode_eq_none {c : Byte} (h : ∀ op : Opcode, op.code ≠ c) : Opcode.ofCode c = none :=
  Option.eq_none_iff_forall_ne_some.mpr fun op hop => h op (code_of_ofCode c op hop)

end Sys2Proof

namespace Sys2Proof.Machine

/-- A step with a reserved opcode next on the port rejects it, in every state. -/
theorem step_word_reserved {s : State} {rest : List CmdWord} (c : Byte) (x : Word64)
    (hp : s.cmdPort = cmdWord c x :: rest) (h : Opcode.ofCode c = none) :
    step s = .next (rejectedState .opcode (s.withPort rest)) := by
  simp only [step, acceptWord_cons hp, decode_reservedOpcode c x h, rejectOpcode, reject_eq]

/-! ## Response words -/

/-- A rejection's word: status 1 over 56 zeros and the reason code (30_encoding.md R91). -/
theorem encode_rejected (reason : Reason) :
    (Response.rejected reason).encode = (1#2 ++ (0#56 ++ reason.code : Word64) : BitVec 66) := by
  cases reason <;> rfl

end Sys2Proof.Machine
end

section
namespace Sys2Proof.Claims
open Sys2Proof.Machine

/-- Settles O2, by `decode_encode`: a command keeps its reserved bits zero, and its operand field gives back the
operands it was made of. -/
theorem decodeOfEncodeIsTheCommand : Obligations.DecodeOfEncodeIsTheCommand := decode_encode

/-- Settles O3: the decoded command has the word's opcode, and its operand is the word's operand field. -/
theorem encodeOfDecodeIsTheWord : Obligations.EncodeOfDecodeIsTheWord := by
  intro w i hdecode
  obtain ⟨op, hcode, hreserved, rfl⟩ := decode_eq_instr_iff.mp hdecode
  rw [encode, build_opcode, operand_build op hreserved, ← hcode, cmdWord_fields]

/-- A row of the table matches a word exactly when some command is read from it. -/
theorem decodes_iff_row (w : CmdWord) :
    (∃ i, decode w = .instr i) ↔ ∃ row ∈ opcodeTable, w &&& row.1 = row.2 := by
  simp only [opcodeTable_eq_rows, List.mem_map, exists_exists_and_eq_and, and_tableMask_eq_iff, decode_eq_instr_iff]
  constructor
  · rintro ⟨_, op, hcode, hreserved, -⟩
    exact ⟨op, op.mem_all, hcode, hreserved⟩
  · rintro ⟨op, -, hcode, hreserved⟩
    exact ⟨_, op, hcode, hreserved, rfl⟩

/-- The rows a word matches all have its opcode, and only one row has it. -/
theorem matching_rows_le_one (w : CmdWord) :
    (opcodeTable.filter fun row => w &&& row.1 == row.2).length ≤ 1 := by
  rw [opcodeTable_eq_rows, ← List.countP_eq_length_filter, List.countP_map]
  calc Opcode.all.countP _
    _ ≤ Opcode.all.countP ((· == opcodeField w) ∘ Opcode.code) := by
      refine List.countP_mono_left fun op _ hmatch => ?_
      obtain ⟨hcode, -⟩ := (and_tableMask_eq_iff op w).mp (beq_iff_eq.mp hmatch)
      exact beq_iff_eq.mpr hcode.symm
    _ = (Opcode.all.map Opcode.code).count (opcodeField w) := List.countP_map.symm
    _ ≤ 1 := List.nodup_iff_count_le_one.mp nodup_codes _

/-- Settles O4: both say that the opcode is in the map and the reserved operand bits are zero, and the codes differ. -/
theorem decodeAcceptsExactlyTheTable : Obligations.DecodeAcceptsExactlyTheTable := fun w =>
  ⟨decodes_iff_row w, matching_rows_le_one w⟩

/-- Settles O8: no opcode of the map lies in the reserved ranges, so the step rejects the word it takes. -/
theorem reservedOpcodeIsRejected : Obligations.ReservedOpcodeIsRejected := by
  intro s opcode operand rest hrange
  have hunmapped : Opcode.ofCode opcode = none := by
    refine ofCode_eq_none ?_
    rintro op rfl
    revert hrange
    cases op <;> decide
  exact step_word_reserved opcode operand rfl hunmapped

/-- Settles O5: each word is the encoding of its command, so `decode_encode` reads it back. -/
theorem specWordsDecode : Obligations.SpecWordsDecode :=
  ⟨decode_encode (.setalg .crc32), decode_encode (.setalg .accurateRip), decode_encode (.settrk 1#8 12#8),
    decode_encode (.settrk 2#8 3#8), decode_encode (.setstart 588#64), decode_encode (.setlen 7056#64),
    decode_encode (.setlen 0xFFFFFFFFFFFFFFFF#64), decode_encode .notfound, decode_encode .start,
    decode_encode (.duration 2352#64), decode_encode .cancel, decode_encode (.chunk 1176#64),
    decode_encode (.byte 0xAB#8), decode_encode .eos, decode_encode (.rd 2#8), decode_encode (.rd 14#8)⟩

/-- Settles O46: the code of each name, by evaluation. -/
theorem statusCodes : Obligations.StatusCodes := by
  unfold Obligations.StatusCodes
  decide

/-- Settles O48: a word is its status over its data, and a rejection's data is its reason code under zeros. -/
theorem responseWordFields : Obligations.ResponseWordFields := by
  refine ⟨fun v => ⟨?_, ?_⟩, fun reason => ⟨?_, ?_, ?_⟩, rfl, rfl, rfl⟩
  · exact BitVec.extractLsb'_append_eq_left
  · exact BitVec.extractLsb'_append_eq_right
  · exact BitVec.extractLsb'_append_eq_left
  · rw [encode_rejected, BitVec.extractLsb'_append_eq_of_add_le (by decide)]
    exact BitVec.extractLsb'_append_eq_left
  · rw [encode_rejected, BitVec.extractLsb'_append_eq_of_add_le (by decide)]
    exact BitVec.extractLsb'_append_eq_right

/-- Settles O49: for each kind of event, `Event.encode` is its row of the event table over its payloads. -/
theorem eventWordFields : Obligations.EventWordFields := fun _ _ _ _ =>
  ⟨rfl, rfl, rfl, rfl, rfl, rfl⟩

end Sys2Proof.Claims
end

section
/-! SUPPORT. The stream commands as record updates: each names every register it writes and the value it writes there
(40_frame_assembler.md R121 to R123). -/

namespace Sys2Proof.Machine

theorem latchFirst_eq (offset : Word64) (s : State) :
    s.latchFirst offset =
      { s with firstSampleOffset := if s.firstValid then s.firstSampleOffset else offset, firstValid := true } := by
  unfold State.latchFirst
  by_cases hvalid : s.firstValid = true
  · rw [if_pos hvalid, if_pos hvalid, ← hvalid]
  · rw [if_neg hvalid, if_neg hvalid]

theorem chunked_eq (offset : Word64) (s : State) :
    chunked offset s = okState []
      { s with
        firstSampleOffset := if s.firstValid then s.firstSampleOffset else offset
        firstValid := true
        nextSampleOffset := offset } := by
  rw [chunked, latchFirst_eq]

theorem countSample_eq (s : State) :
    s.countSample =
      { s with nextSampleOffset := if s.level % 4 = 0 then s.nextSampleOffset + 1#64 else s.nextSampleOffset } := by
  unfold State.countSample
  simp only [sampleComplete_iff]
  split_ifs <;> rfl

theorem pushed_eq (b : Byte) (s : State) :
    pushed b s =
      { s with
        fifo := s.fifo ++ [b]
        nextSampleOffset :=
          if (s.level + 1) % 4 = 0 then s.nextSampleOffset + 1#64 else s.nextSampleOffset } := by
  rw [pushed, countSample_eq, appendByte_level]
  rfl

theorem arAccumulate_eq (n : Nat) (sector : List Byte) (s : State) :
    arAccumulate n sector s = { s with acc := (arAccumulate n sector s).acc } := by
  unfold arAccumulate
  split_ifs <;> rfl

theorem updateSector_crc32 {s : State} (h : s.alg = .crc32) (sector : List Byte) :
    updateSector sector s = crcSectorUpdate sector s := by
  simp only [updateSector, h]

theorem updateSector_accurateRip {s : State} (h : s.alg = .accurateRip) (sector : List Byte) :
    updateSector sector s = arAccumulate s.countSector.discFrameCounter.toNat sector s.countSector := by
  simp only [updateSector, h, arSector]

/-- A sector update writes the checksum and the sector count, and no other register (R127). -/
theorem updateSector_eq (sector : List Byte) (s : State) :
    updateSector sector s =
      { s with
        acc := (updateSector sector s).acc
        discFrameCounter := (updateSector sector s).discFrameCounter } := by
  cases halg : s.alg
  case crc32 =>
    rw [updateSector_crc32 halg, ← halg]
    rfl
  case accurateRip =>
    rw [updateSector_accurateRip halg, arAccumulate_eq, ← halg]
    rfl

/-- A drain empties the FIFO and counts its bytes; the checksum and the sector count are the algorithm's (R123). -/
theorem drainSector_eq {s : State} {acc : Word32} {count : Word64} (hacc : (drainSector s).acc = acc)
    (hcount : (drainSector s).discFrameCounter = count) :
    drainSector s =
      { s with
        fifo := []
        bytesConsumed := s.bytesConsumed + 2352#64
        acc := acc
        discFrameCounter := count } := by
  subst hacc hcount
  unfold drainSector
  rw [updateSector_eq]
  rfl

theorem progressEvent_eq (s : State) : progressEvent s = Claims.progressOf s.bytesConsumed s.frameLength := by
  rw [progressEvent, signed64_eq_toInt]
  rfl

/-- The byte that completes a sector completes a sample too, 2352 being a multiple of 4. -/
theorem completed_eq_drained {b : Byte} {s : State} {acc : Word32} {count : Word64} (hlevel : s.level = 2351)
    (hacc : (drainSector (pushed b s)).acc = acc) (hcount : (drainSector (pushed b s)).discFrameCounter = count) :
    completed b s = Claims.drained s acc count := by
  have hsample : (s.level + 1) % 4 = 0 := by omega
  have hevent : progressEvent (drainSector (pushed b s)) =
      Claims.progressOf (s.bytesConsumed + 2352#64) s.frameLength := by simp [progressEvent_eq]
  rw [completed, hevent, drainSector_eq hacc hcount, pushed_eq, if_pos hsample]
  rfl

/-- The operand of `BYTE` is a byte when bits 63 to 8 are zero (30_encoding.md R95). -/
theorem byte_operand_reserved_iff (x : Word64) : x &&& Opcode.byte.reservedMask = 0#64 ↔ x >>> 8 = 0#64 :=
  and_high_mask 8 x _ (by decide)

/-- The checks on a word of the map in their order (30_encoding.md R101), for a command legal where `p` holds. -/
theorem step_word {s : State} {rest : List CmdWord} (op : Opcode) (x : Word64) {p : Prop} [Decidable p]
    (hp : s.cmdPort = cmdWord op.code x :: rest) (hlegal : legalIn op s.st = true ↔ p) :
    step s =
      if ¬ p then .next (rejectedState .state (s.withPort rest))
      else if x &&& op.reservedMask ≠ 0#64 then .next (rejectedState .operand (s.withPort rest))
      else exec (op.build x) (s.withPort rest) := by
  by_cases h : p
  · rw [if_neg (not_not.mpr h), step_word_legal op x hp (hlegal.mpr h), ite_not]
  · rw [if_pos h, step_word_illegal op x hp (Bool.eq_false_iff.mpr (mt hlegal.mp h))]

end Sys2Proof.Machine
end

section
namespace Sys2Proof.Claims
open Sys2Proof.Machine

/-- Settles O22: in `Running` it is `chunked_eq`, and no operand bit of `CHUNK` is reserved. -/
theorem chunkLoadsTheOffset : Obligations.ChunkLoadsTheOffset := by
  refine ⟨fun s offset hrunning => ?_, fun s x rest => ?_⟩
  · rw [execChunk_running offset hrunning, chunked_eq]
    rfl
  · have hfree : x &&& Opcode.chunk.reservedMask = 0#64 := BitVec.and_zero
    refine (step_word (s := offering _ rest s) .chunk x rfl (p := s.st = .running) beq_iff_eq).trans ?_
    rw [if_neg (not_not.mpr hfree)]
    rfl

/-- Settles O23: the byte is pushed and counted, the 2352nd drains the sector, and the word is checked for its state
and then for its operand. -/
theorem bytePushesAndDrains : Obligations.BytePushesAndDrains := by
  refine ⟨fun s b hrunning hvalid hlevel => ?_, fun s b hrunning hvalid hlevel => ?_,
    fun s b _ hearly => execByte_early b hearly, fun s x rest => ?_⟩
  · rw [← pushed_eq]
    exact execByte_below b hrunning hvalid hlevel
  · refine ⟨(drainSector (pushed b s)).acc, (drainSector (pushed b s)).discFrameCounter, ?_⟩
    rw [← completed_eq_drained hlevel rfl rfl]
    exact execByte_complete b hrunning hvalid hlevel
  · refine (step_word (s := offering _ rest s) .byte x rfl (p := s.st = .running) beq_iff_eq).trans ?_
    simp only [ne_eq, byte_operand_reserved_iff]
    rfl

end Sys2Proof.Claims
end

section
/-! SUPPORT. What the bytes of a chunk do to `nextSampleOffset` (40_frame_assembler.md R126). -/

namespace Sys2Proof.Machine

variable {s t : State}

theorem Streaming.exec_below (hs : Streaming s) (hlevel : s.level < 2351) (b : Byte) :
    exec (.byte b) s = .next (okState [] (pushed b s)) :=
  execByte_below b hs.running hs.chunked hlevel

theorem Streaming.exec_full (hs : Streaming s) (hlevel : s.level = 2351) (b : Byte) :
    exec (.byte b) s = .next (completed b s) :=
  execByte_complete b hs.running hs.chunked hlevel

theorem Streaming.pushed (hs : Streaming s) (hlevel : s.level < 2351) (b : Byte) :
    Streaming (okState [] (pushed b s)) :=
  ⟨by simp [hs.running], by simp [hs.chunked], by simpa using hlevel⟩

theorem Streaming.completed (hs : Streaming s) (b : Byte) : Streaming (completed b s) :=
  ⟨by simp [hs.running], by simp [hs.chunked], by simp⟩

/-- A byte in a stream advances the sample phase, and the fourth byte of a sample advances the offset. -/
theorem execByte_streaming (b : Byte) (hs : Streaming s) :
    ∃ t, exec (.byte b) s = .next t ∧ Streaming t ∧ t.level % 4 = (s.level + 1) % 4 ∧
      t.nextSampleOffset = s.nextSampleOffset + BitVec.ofNat 64 ((s.level % 4 + 1) / 4) := by
  have hphase : (if (s.level + 1) % 4 = 0 then s.nextSampleOffset + 1#64 else s.nextSampleOffset) =
      s.nextSampleOffset + BitVec.ofNat 64 ((s.level % 4 + 1) / 4) := by
    split_ifs with hsample
    · rw [show (s.level % 4 + 1) / 4 = 1 by omega]
    · rw [show (s.level % 4 + 1) / 4 = 0 by omega, BitVec.add_zero]
  rcases Nat.lt_or_eq_of_le hs.level_le with hbelow | hfull
  · exact ⟨_, hs.exec_below hbelow b, hs.pushed hbelow b, by simp, by simpa using hphase⟩
  · exact ⟨_, hs.exec_full hfull b, hs.completed b, by simp [hfull], by simpa using hphase⟩

/-- The bytes of a chunk advance the offset by the samples they complete, the bytes already held counted in. -/
theorem runAll_bytes_nextSampleOffset (bytes : List Byte) (hs : Streaming s) :
    ∃ t, runAll (bytes.map .byte) s = .next t ∧
      t.nextSampleOffset = s.nextSampleOffset + BitVec.ofNat 64 ((s.level % 4 + bytes.length) / 4) := by
  induction bytes generalizing s with
  | nil =>
    have hnone : s.level % 4 / 4 = 0 := by omega
    exact ⟨s, rfl, by simp [hnone]⟩
  | cons b bs ih =>
    obtain ⟨u, hbyte, hu, hphase, hnext⟩ := execByte_streaming b hs
    obtain ⟨t, hrun, ht⟩ := ih hu
    refine ⟨t, (runAll_cons _ hbyte).trans hrun, ?_⟩
    rw [ht, hnext, hphase, BitVec.add_assoc, ← BitVec.ofNat_add, List.length_cons]
    congr 2
    omega

end Sys2Proof.Machine
end

section
namespace Sys2Proof.Claims
open Sys2Proof.Machine

/-- Settles O31: `CHUNK` loads the offset, and its bytes complete `n / 4` samples since none is begun. -/
theorem offsetCountsWholeSamples : Obligations.OffsetCountsWholeSamples := by
  intro s offset bytes hrunning hlevel hboundary
  obtain ⟨t, hrun, ht⟩ := runAll_bytes_nextSampleOffset bytes (chunked_streaming offset hrunning hlevel)
  have hphase : (chunked offset s).level % 4 = 0 := by simpa [State.level] using hboundary
  rw [hphase, Nat.zero_add] at ht
  exact ⟨t, (runAll_cons _ (execChunk_running offset hrunning)).trans hrun, ht⟩

end Sys2Proof.Claims
end

section
/-! SUPPORT. The checksum, the counters, the FIFO and the events of a stream depend on its bytes alone, and not on its
`CHUNK` words (40_frame_assembler.md R124). -/

namespace Sys2Proof.Machine

/-- The state with the offset registers and the answers blanked out: what is left is all that the pushes and drains of
a stream read or write. -/
def State.unlabelled (s : State) : State :=
  { s with firstValid := true, firstSampleOffset := 0#64, nextSampleOffset := 0#64, answers := [] }

theorem respond_unlabelled (r : Response) (events : List Event) (s : State) :
    (s.respond r events).unlabelled = s.unlabelled := rfl

theorem chunked_unlabelled (offset : Word64) (s : State) : (chunked offset s).unlabelled = s.unlabelled := by
  rw [chunked_eq]
  rfl

theorem pushed_unlabelled (b : Byte) (s : State) : (pushed b s).unlabelled = s.unlabelled.appendByte b := by
  rw [pushed_eq]
  rfl

theorem arAccumulate_unlabelled (n : Nat) (sector : List Byte) (s : State) :
    (arAccumulate n sector s).unlabelled = arAccumulate n sector s.unlabelled := by
  unfold arAccumulate
  rw [show firstTrack s.unlabelled = firstTrack s from rfl, show lastTrack s.unlabelled = lastTrack s from rfl,
    show inTail n s.unlabelled = inTail n s from rfl]
  split_ifs <;> rfl

theorem updateSector_unlabelled (sector : List Byte) (s : State) :
    (updateSector sector s).unlabelled = updateSector sector s.unlabelled := by
  cases halg : s.alg
  case crc32 =>
    rw [updateSector_crc32 halg, updateSector_crc32 (s := s.unlabelled) halg]
    rfl
  case accurateRip =>
    rw [updateSector_accurateRip halg, updateSector_accurateRip (s := s.unlabelled) halg]
    exact arAccumulate_unlabelled _ sector s.countSector

theorem consumeSector_unlabelled (s : State) : s.consumeSector.unlabelled = s.unlabelled.consumeSector := by
  unfold State.consumeSector
  rfl

theorem drainSector_unlabelled (s : State) : (drainSector s).unlabelled = drainSector s.unlabelled := by
  unfold drainSector
  rw [consumeSector_unlabelled, updateSector_unlabelled]
  rfl

theorem progressEvent_unlabelled (s : State) : progressEvent s.unlabelled = progressEvent s := rfl

/-- Two states that a stream's bytes cannot tell apart: they differ in the offsets and in the answers at most, and
gave the same events. -/
structure SameData (s t : State) : Prop where
  registers : s.unlabelled = t.unlabelled
  events : s.events = t.events

variable {s t : State}

theorem SameData.level (h : SameData s t) : s.level = t.level :=
  (congrArg State.level h.registers :)

theorem SameData.symm (h : SameData s t) : SameData t s := ⟨h.registers.symm, h.events.symm⟩

theorem SameData.trans {u : State} (h : SameData s t) (h' : SameData t u) : SameData s u :=
  ⟨h.registers.trans h'.registers, h.events.trans h'.events⟩

/-- `CHUNK` writes none of the data. -/
theorem SameData.chunked (offset : Word64) (s : State) : SameData (chunked offset s) s :=
  ⟨chunked_unlabelled offset s, by simp [State.events]⟩

theorem SameData.pushed (h : SameData s t) (b : Byte) :
    SameData (okState [] (pushed b s)) (okState [] (pushed b t)) where
  registers := by
    rw [respond_unlabelled, respond_unlabelled, pushed_unlabelled, pushed_unlabelled, h.registers]
  events := by simpa [State.events] using h.events

theorem SameData.completed (h : SameData s t) (b : Byte) : SameData (completed b s) (completed b t) := by
  have hdrain : (drainSector (Machine.pushed b s)).unlabelled = (drainSector (Machine.pushed b t)).unlabelled := by
    rw [drainSector_unlabelled, drainSector_unlabelled, pushed_unlabelled, pushed_unlabelled, h.registers]
  have hprogress : progressEvent (drainSector (Machine.pushed b s)) =
      progressEvent (drainSector (Machine.pushed b t)) := by
    rw [← progressEvent_unlabelled, hdrain, progressEvent_unlabelled]
  constructor
  · rw [respond_unlabelled, respond_unlabelled, hdrain]
  · simpa [State.events, hprogress] using h.events

/-- The bytes alone lead from any state with the data of `s` to one with the data of `t`. -/
def BytesLead (s t : State) (bytes : List Byte) : Prop :=
  ∀ s', Streaming s' → SameData s s' → ∃ t', runAll (bytes.map .byte) s' = .next t' ∧ SameData t t'

/-- A stream leaves the data that its bytes alone leave. -/
theorem runAll_stream_bytesLead {r : List Instr} (hs : Streaming s) (hr : ∀ i ∈ r, isStream i = true) :
    ∃ t, runAll r s = .next t ∧ BytesLead s t (dataOf r) := by
  obtain ⟨t, hrun, -, hlead⟩ := runAll_stream_induct BytesLead
    (nil := fun s _ s' _ hsame => ⟨s', rfl, hsame⟩)
    (chunk := fun s offset t bytes _ ih s' hs' hsame => ih s' hs' ((SameData.chunked offset s).trans hsame))
    (below := fun s b t bytes _ hlevel ih s' hs' hsame => by
      have hlevel' : s'.level < 2351 := hsame.level ▸ hlevel
      obtain ⟨t', hrun, ht⟩ := ih _ (hs'.pushed hlevel' b) (hsame.pushed b)
      exact ⟨t', (runAll_cons _ (hs'.exec_below hlevel' b)).trans hrun, ht⟩)
    (full := fun s b t bytes _ hlevel ih s' hs' hsame => by
      have hlevel' : s'.level = 2351 := hsame.level ▸ hlevel
      obtain ⟨t', hrun, ht⟩ := ih _ (hs'.completed b) (hsame.completed b)
      exact ⟨t', (runAll_cons _ (hs'.exec_full hlevel' b)).trans hrun, ht⟩)
    r s hs hr
  exact ⟨t, hrun, hlead⟩

end Sys2Proof.Machine
end

section
namespace Sys2Proof.Claims
open Sys2Proof.Machine

/-- Settles O32: after their first `CHUNK` both streams leave the data that the same bytes alone leave. -/
theorem chunkingInvariance : Obligations.ChunkingInvariance := by
  intro s o o' r r' hrunning hlevel hr hr' hbytes
  have hstart (offset : Word64) : Streaming (chunked offset s) := chunked_streaming offset hrunning hlevel
  have hsame (offset : Word64) : SameData (chunked offset s) (chunked o s) :=
    (SameData.chunked offset s).trans (SameData.chunked o s).symm
  obtain ⟨t, hrun, hlead⟩ := runAll_stream_bytesLead (hstart o) hr
  obtain ⟨t', hrun', hlead'⟩ := runAll_stream_bytesLead (hstart o') hr'
  obtain ⟨u, hu, ht⟩ := hlead _ (hstart o) (hsame o)
  obtain ⟨u', hu', ht'⟩ := hlead' _ (hstart o) (hsame o')
  rw [hbytes, hu'] at hu
  cases hu
  have h := ht.trans ht'.symm
  refine ⟨t, t', (runAll_cons _ (execChunk_running o hrunning)).trans hrun,
    (runAll_cons _ (execChunk_running o' hrunning)).trans hrun', ?_, ?_, ?_, ?_, h.events⟩
  · exact (congrArg State.acc h.registers :)
  · exact (congrArg State.bytesConsumed h.registers :)
  · exact (congrArg State.discFrameCounter h.registers :)
  · exact (congrArg State.fifo h.registers :)

end Sys2Proof.Claims
end

section
/-! SUPPORT. The byte step by the loop, by the table and on the raw register: three forms of one function
(41_crc32.md R141, R142, R146). -/

namespace Sys2Proof.Machine

theorem crcShift_eq (c : Word32) :
    crcShift c = c >>> 1 ^^^ if c.getLsbD 0 then Config.crcPolynomial else 0#32 := by
  unfold crcShift
  split_ifs <;> simp

/-- One shift is linear over exclusive or: whether the polynomial comes in is a bit of the register. -/
theorem crcShift_xor (x y : Word32) : crcShift (x ^^^ y) = crcShift x ^^^ crcShift y := by
  have hfeedback : (if (x ^^^ y).getLsbD 0 then Config.crcPolynomial else 0#32) =
      (if x.getLsbD 0 then Config.crcPolynomial else 0#32) ^^^
        (if y.getLsbD 0 then Config.crcPolynomial else 0#32) := by
    rw [BitVec.getLsbD_xor]
    cases x.getLsbD 0 <;> cases y.getLsbD 0 <;> rfl
  rw [crcShift_eq, crcShift_eq x, crcShift_eq y, hfeedback, BitVec.ushiftRight_xor_distrib]
  ac_rfl

theorem crcShifts_xor (n : Nat) (x y : Word32) : crcShifts n (x ^^^ y) = crcShifts n x ^^^ crcShifts n y := by
  induction n generalizing x y with
  | zero => rfl
  | succ n ih => rw [crcShifts, crcShift_xor, ih]; rfl

/-- While the bits that leave are zero, the polynomial stays out and the register is only shifted. -/
theorem crcShifts_of_low_zero (n : Nat) (c : Word32) (hlow : ∀ k < n, c.getLsbD k = false) :
    crcShifts n c = c >>> n := by
  induction n generalizing c with
  | zero => exact (BitVec.ushiftRight_zero c).symm
  | succ n ih =>
    have hshift : crcShift c = c >>> 1 := by
      rw [crcShift_eq, hlow 0 n.succ_pos]
      exact BitVec.xor_zero
    have hrest : ∀ k < n, (c >>> 1).getLsbD k = false := fun k hk => by
      rw [BitVec.getLsbD_ushiftRight, hlow (1 + k) (by omega)]
    rw [crcShifts, hshift, ih _ hrest, Nat.add_comm, BitVec.shiftRight_add]

/-- A byte does not reach above bit 7 of the register it is taken into. -/
theorem xor_byte_ushiftRight (c : Word32) (b : Byte) : (c ^^^ b.setWidth 32) >>> 8 = c >>> 8 := by
  have hbyte : (b.setWidth 32 : Word32) >>> 8 = 0#32 := by
    ext k hk
    simp
  rw [BitVec.ushiftRight_xor_distrib, hbyte, BitVec.xor_zero]

/-- Eight shifts are a look-up of the low byte, over the other bits moved down by a byte (41_crc32.md R142). -/
theorem crcShifts_eight (c : Word32) : crcShifts 8 c = crcTable (c.setWidth 8) ^^^ c >>> 8 := by
  have hsplit : (c.setWidth 8).setWidth 32 ^^^ (c ^^^ (c.setWidth 8).setWidth 32) = c := by
    rw [BitVec.xor_comm c, ← BitVec.xor_assoc, BitVec.xor_self, BitVec.zero_xor]
  have hzero : ∀ k < 8, (c ^^^ (c.setWidth 8).setWidth 32).getLsbD k = false := fun k hk => by
    simp [hk, show k < 32 by omega]
  calc crcShifts 8 c
      = crcTable (c.setWidth 8) ^^^ crcShifts 8 (c ^^^ (c.setWidth 8).setWidth 32) := by
        rw [crcTable, ← crcShifts_xor, hsplit]
    _ = crcTable (c.setWidth 8) ^^^ c >>> 8 := by
        rw [crcShifts_of_low_zero 8 _ hzero, xor_byte_ushiftRight]

/-- The raw step is the loop over the register with the byte taken in. -/
theorem crcRawStep_eq_shifts (raw : Word32) (b : Byte) : crcRawStep raw b = crcShifts 8 (raw ^^^ b.setWidth 32) := by
  rw [crcShifts_eight, xor_byte_ushiftRight]
  rfl

/-- The presented form of a byte step is the complement of a raw step from the complement (41_crc32.md R146). -/
theorem crc32Byte_eq_rawStep (a : Word32) (b : Byte) :
    crc32Byte a b = crcRawStep (a ^^^ Config.crcComplement) b ^^^ Config.crcComplement := by
  rw [crcRawStep_eq_shifts]
  rfl

theorem crc32Bytes_append (a : Word32) (x y : List Byte) :
    crc32Bytes a (x ++ y) = crc32Bytes (crc32Bytes a x) y :=
  List.foldl_append

end Sys2Proof.Machine
end

section
namespace Sys2Proof.Claims
open Sys2Proof.Machine

/-- The loop gives the listed table (41_crc32.md R142): 256 closed values, evaluated by the kernel. -/
theorem crcListing_getElem? : ∀ n : Byte, crcListing[n.toNat]? = some (crcTable n) := by
  decide +kernel

/-- Settles O35: the table form is the raw step between two complements, and so is the loop. -/
theorem crcTableFormEqualsTheLoop : Obligations.CrcTableFormEqualsTheLoop :=
  ⟨crc32Byte_eq_rawStep, crcListing_getElem?⟩

/-- Settles O37, by induction on the bytes: the two complements between a byte and the next cancel. -/
theorem crcRawRegisterIsTheComplement : Obligations.CrcRawRegisterIsTheComplement := by
  intro a bytes
  induction bytes generalizing a with
  | nil => rfl
  | cons b bytes ih =>
    have hstep : crcRawStep (a ^^^ 0xFFFFFFFF#32) b = crc32Byte a b ^^^ 0xFFFFFFFF#32 := by
      rw [crc32Byte_eq_rawStep, BitVec.xor_assoc, BitVec.xor_self, BitVec.xor_zero]
    rw [List.foldl_cons, hstep, ih]
    rfl

/-- Settles O36: the fold over a concatenation is the second part's fold, begun at the first part's. -/
theorem crcContinues : Obligations.CrcContinues := fun a x y => (crc32Bytes_append a x y).symm

/-- Settles O38, by evaluating the byte step and the table. -/
theorem crcCheckValues : Obligations.CrcCheckValues := by
  unfold Obligations.CrcCheckValues
  decide +kernel

end Sys2Proof.Claims
end

section
/-! SUPPORT. The CRC32 of the whole sectors of a stream, and what an `EOS` on a sample boundary delivers (41_crc32.md
R145, 43_session.md R200). -/

namespace Sys2Proof.Machine

variable {s t u : State} {bytes : List Byte}

/-- The byte that completes a sector in CRC32 mode folds the whole sector into `ACC` (41_crc32.md R143). -/
theorem completed_acc_crc32 (b : Byte) (halg : s.alg = .crc32) :
    (drainSector (pushed b s)).acc = crc32Bytes s.acc (s.fifo ++ [b]) := by
  rw [drainSector_acc_crc32 (by simpa using halg)]
  simp

/-- The bytes of the whole sectors of a run of bytes, the tail excluded. -/
def wholeSectors (bytes : List Byte) : List Byte := bytes.take (2352 * (bytes.length / 2352))

theorem wholeSectors_of_tail (h : bytes.length < 2352) : wholeSectors bytes = [] := by
  rw [wholeSectors, Nat.div_eq_of_lt h, Nat.mul_zero, List.take_zero]

theorem wholeSectors_sector_append {sector : List Byte} (h : sector.length = 2352) (bytes : List Byte) :
    wholeSectors (sector ++ bytes) = sector ++ wholeSectors bytes := by
  have hbytes : 2352 * ((sector ++ bytes).length / 2352) = sector.length + 2352 * (bytes.length / 2352) := by
    rw [List.length_append]
    omega
  rw [wholeSectors, hbytes, List.take_length_add_append, wholeSectors]

/-- In CRC32 mode `t` follows from `s` with the whole sectors that these bytes complete folded into `ACC`. -/
def CrcFolded (s t : State) (bytes : List Byte) : Prop :=
  s.alg = .crc32 → t.acc = crc32Bytes s.acc (wholeSectors (s.fifo ++ bytes))

/-- Below a sector nothing is folded. -/
theorem CrcFolded.refl (h : s.level ≤ 2351) : CrcFolded s s [] := fun _ => by
  rw [List.append_nil, wholeSectors_of_tail (Nat.lt_succ_of_le h)]
  rfl

/-- A byte may stand in the FIFO or be still to come. -/
theorem CrcFolded.of_append {held : List Byte} (h : CrcFolded u t bytes) (halg : u.alg = s.alg)
    (hacc : u.acc = s.acc) (hfifo : u.fifo = s.fifo ++ held) : CrcFolded s t (held ++ bytes) := fun hcrc => by
  rw [h (halg.trans hcrc), hacc, hfifo, List.append_assoc]

/-- A drained sector is folded before those that follow. -/
theorem CrcFolded.of_completed {b : Byte} (h : CrcFolded (completed b s) t bytes) (hlevel : s.level = 2351) :
    CrcFolded s t (b :: bytes) := fun hcrc => by
  have hsector : (s.fifo ++ [b]).length = 2352 := by simpa [State.level] using hlevel
  have hacc : (completed b s).acc = crc32Bytes s.acc (s.fifo ++ [b]) := by
    simpa using completed_acc_crc32 b hcrc
  have hfifo : (completed b s).fifo = [] := by simp
  rw [h (by simpa using hcrc), hacc, hfifo, List.nil_append, List.append_cons s.fifo b bytes,
    wholeSectors_sector_append hsector, ← crc32Bytes_append]

/-- Every stream, from every state that takes one. -/
theorem runAll_stream_crcFolded {r : List Instr} (hs : Streaming s) (hr : ∀ i ∈ r, isStream i = true) :
    ∃ t, runAll r s = .next t ∧ Streaming t ∧ CrcFolded s t (dataOf r) :=
  runAll_stream_induct CrcFolded
    (nil := fun _ hs => .refl hs.level_le)
    (chunk := fun _ _ _ _ _ h => h.of_append (held := []) (by simp) (by simp) (by simp))
    (below := fun _ b _ _ _ _ h => h.of_append (held := [b]) (by simp) (by simp) (by simp))
    (full := fun _ _ _ _ _ hl h => h.of_completed hl)
    r s hs hr

@[simp] theorem respond_lastAnswer (r : Response) (events : List Event) (s : State) :
    (s.respond r events).lastAnswer = some { response := r, events := events } := by
  simp [State.lastAnswer]

/-- Whether the range is whole or truncated, the result is the last event. -/
theorem finalize_delivers (s : State) :
    ∃ before u, finalize s = .next (okState (before ++ [.done s.acc]) u) := by
  unfold finalize
  split_ifs
  · exact ⟨[errorEvent .truncatedRange (missingSamples s)], _, rfl⟩
  · exact ⟨[], _, rfl⟩

/-- An `EOS` on a sample boundary passes both fatal tests. -/
theorem Streaming.exec_eos (hs : Streaming s) (haligned : s.level % 4 = 0) : exec .eos s = finalize s := by
  have hsample : sampleComplete s = true := sampleComplete_iff.mpr haligned
  have hlegal : legalIn .eos s.st = true := by simp [legalIn, hs.running]
  change whenLegal .eos s _ = _
  rw [whenLegal_of_legal hlegal, hs.chunked, hsample]
  rfl

end Sys2Proof.Machine
end

section
namespace Sys2Proof.Claims
open Sys2Proof.Machine

/-- Settles O25: the drain's accumulator is the fold over the sector, and CRC32 mode leaves the sector count. -/
theorem crcSectorFoldsEveryByte : Obligations.CrcSectorFoldsEveryByte := by
  intro s b hrunning hvalid hlevel halg
  have hcount : (drainSector (pushed b s)).discFrameCounter = s.discFrameCounter := by simp [halg]
  exact (execByte_complete b hrunning hvalid hlevel).trans
    (congrArg _ (completed_eq_drained hlevel (completed_acc_crc32 b halg) hcount))

/-- Settles O39: a fresh session starts from `ACC = 0` with nothing held, the stream folds its whole sectors, and what
is held at its end is a whole number of samples when the stream is, so that `EOS` delivers. -/
theorem crcOfTheStream : Obligations.CrcOfTheStream := by
  intro s offset r hfresh halg hr
  obtain ⟨hfifo, hacc, -⟩ := hfresh.inv.no_chunk hfresh.no_chunk
  have hstart : Streaming (chunked offset s) := chunked_streaming offset hfresh.running hfresh.inv.level_le
  obtain ⟨t, hrun, ht, hcrc⟩ := runAll_stream_crcFolded hstart hr
  obtain ⟨t', hrun', htail⟩ := runAll_stream_tailHeld hstart hr
  cases hrun.symm.trans hrun'
  refine ⟨t, (runAll_cons r (execChunk_running offset hfresh.running)).trans hrun, ?_, fun haligned => ?_⟩
  · have hwhole : t.acc = crc32Bytes 0#32 (wholeSectors (dataOf r)) := by
      simpa [hfifo, hacc] using hcrc (by simpa using halg)
    exact hwhole
  · have hlevel : t.level % 4 = 0 := by
      have hheld : t.fifo.length = (dataOf r).length - 2352 * ((dataOf r).length / 2352) := by
        simpa [hfifo] using congrArg List.length htail.fifo
      rw [State.level, hheld]
      omega
    obtain ⟨before, u, hdone⟩ := finalize_delivers t
    exact ⟨_, before, (ht.exec_eos hlevel).trans hdone, respond_lastAnswer _ _ u⟩

end Sys2Proof.Claims
end

section
/-! SUPPORT. Sample values of a run of bytes that is cut into parts, and their weighted sum (20_memory.md R65,
42_accuraterip.md R167). -/

namespace Sys2Proof.Machine
open Claims (sampleAt weighted)

theorem sampleAt_drop (k i : Nat) (bytes : List Byte) :
    sampleAt (bytes.drop (4 * k)) i = sampleAt bytes (k + i) := by
  simp only [sampleAt, List.getD_eq_getElem?_getD, List.getElem?_drop, ← Nat.add_assoc, ← Nat.mul_add]

/-- Sector `k`, counted from 0, begins at sample `588 k`. -/
theorem sampleAt_sector (k i : Nat) (bytes : List Byte) :
    sampleAt (bytes.drop (2352 * k)) i = sampleAt bytes (588 * k + i) := by
  rw [← sampleAt_drop, ← Nat.mul_assoc]

theorem sampleAt_append_left {front : List Byte} {j : Nat} (h : 4 * j + 4 ≤ front.length) (back : List Byte) :
    sampleAt (front ++ back) j = sampleAt front j := by
  rw [sampleAt, List.getD_append _ _ _ _ (by omega), List.getD_append _ _ _ _ (by omega),
    List.getD_append _ _ _ _ (by omega), List.getD_append _ _ _ _ (by omega)]

theorem sampleAt_append_right {front : List Byte} {k j : Nat} (hlen : front.length = 4 * k) (h : k ≤ j)
    (back : List Byte) : sampleAt (front ++ back) j = sampleAt back (j - k) := by
  obtain ⟨i, rfl⟩ := Nat.exists_eq_add_of_le h
  rw [← sampleAt_drop, ← hlen, List.drop_left, Nat.add_sub_cancel_left]

theorem sampleAt_zeros (m j : Nat) : sampleAt (List.replicate m 0#8) j = 0 := by
  simp [sampleAt]

/-- Zeros but for one sample. -/
theorem sampleAt_single {p q : Nat} {sample : List Byte} (hp : p = 4 * q) (hsample : sample.length = 4) (m j : Nat) :
    sampleAt (List.replicate p 0#8 ++ sample ++ List.replicate m 0#8) j =
      if j = q then sampleAt sample 0 else 0 := by
  have hfront : (List.replicate p 0#8).length = 4 * q := by rw [List.length_replicate, hp]
  have hupto : (List.replicate p 0#8 ++ sample).length = 4 * (q + 1) := by
    rw [List.length_append, hfront, hsample, Nat.mul_succ]
  split_ifs with hj
  · rw [sampleAt_append_left (by omega), sampleAt_append_right hfront hj.ge, hj, Nat.sub_self]
  · rcases Nat.lt_or_gt_of_ne hj with hbefore | hafter
    · rw [sampleAt_append_left (by omega), sampleAt_append_left (by omega), sampleAt_zeros]
    · rw [sampleAt_append_right hupto hafter, sampleAt_zeros]

theorem weighted_eq_sum (base n : Nat) (bytes : List Byte) :
    weighted base n bytes = ∑ i ∈ Finset.range n, (base + i + 1) * sampleAt bytes i := rfl

/-- The model's sum over a run of sample values is the weighted sum over the integers, reduced modulo 2^32 (R169). -/
theorem weightedSum_samplesOf : ∀ (base : Nat) (bytes : List Byte),
    weightedSum (base + 1) 0#32 (samplesOf bytes) = BitVec.ofNat 32 (weighted base (bytes.length / 4) bytes)
  | _, [] | _, [_] | _, [_, _] | _, [_, _, _] => by simp [samplesOf, weightedSum, weighted]
  | base, b0 :: b1 :: b2 :: b3 :: rest => by
    have hlen : (b0 :: b1 :: b2 :: b3 :: rest).length / 4 = rest.length / 4 + 1 := by
      simp only [List.length_cons]
      omega
    have hfirst : sampleAt (b0 :: b1 :: b2 :: b3 :: rest) 0 = (le32 b0 b1 b2 b3).toNat := (le32_toNat ..).symm
    have hrest (i : Nat) : sampleAt (b0 :: b1 :: b2 :: b3 :: rest) (i + 1) = sampleAt rest i := by
      rw [Nat.add_comm, ← sampleAt_drop]
      rfl
    rw [samplesOf, weightedSum, weightedSum_start, weightedSum_samplesOf (base + 1) rest, hlen, weighted_eq_sum,
      weighted_eq_sum, Finset.sum_range_succ', hfirst, Nat.add_comm (Finset.sum _ _), BitVec.ofNat_add,
      BitVec.zero_add, Nat.add_zero]
    simp only [hrest, Nat.add_right_comm base, Nat.add_assoc]

/-- The last sample value of a sector is its sample 587 (R164). -/
theorem lastSample_toNat (sector : List Byte) : (lastSample sector).toNat = sampleAt sector 587 :=
  le32_toNat ..

end Sys2Proof.Machine
end

section
/-! SUPPORT. What one sector adds to `ACC` in AccurateRip mode (42_accuraterip.md R163 to R168). -/

namespace Sys2Proof.Machine
open Claims (sampleAt weighted)

variable {s : State} {bytes : List Byte}

/-- The number of the next sector, counted from 1 (R161). -/
def sectorNumber (s : State) : Nat := (s.discFrameCounter + 1#64).toNat

/-- What the sector in front of these bytes adds to `ACC` in the state that drains it, in the order of R168. -/
def arShare (s : State) (bytes : List Byte) : Word32 :=
  if s.trackNumber = 1#8 ∧ sectorNumber s ≤ 4 then 0#32
  else if s.trackNumber = 1#8 ∧ sectorNumber s = 5 then BitVec.ofNat 32 (2940 * sampleAt bytes 587)
  else if s.trackNumber = s.trackCount ∧ s.frameLength.toInt / 588 < (sectorNumber s : Int) + 5 then 0#32
  else BitVec.ofNat 32 (weighted (s.bytesConsumed.toNat / 4) 588 bytes)

theorem arSector_acc {sector : List Byte} (h : sector.length = 2352) :
    (arSector sector s).acc = s.acc + arShare s sector := by
  have hsum : sectorSum sector s.countSector =
      BitVec.ofNat 32 (weighted (s.bytesConsumed.toNat / 4) 588 sector) := by
    rw [sectorSum, weightedSum_samplesOf, h]
    rfl
  have hhead : headContribution sector = BitVec.ofNat 32 (2940 * sampleAt sector 587) := by
    rw [headContribution, lastSample_toNat]
  have hfirst : firstTrack s.countSector = true ↔ s.trackNumber = 1#8 := beq_iff_eq
  have hlast : lastTrack s.countSector = true ↔ s.trackNumber = s.trackCount := beq_iff_eq
  have htail : inTail (sectorNumber s) s.countSector = true ↔
      s.frameLength.toInt / 588 < (sectorNumber s : Int) + 5 := by
    simp [inTail, discFrameLength, signed64_eq_toInt]
  have hskip : sectorNumber s < 5 ↔ sectorNumber s ≤ 4 := Nat.lt_succ_iff
  rw [arSector, State.countSector_discFrameCounter, ← sectorNumber, arAccumulate, arShare]
  simp only [Bool.and_eq_true, decide_eq_true_eq, beq_iff_eq, hfirst, hlast, htail, hskip, hsum, hhead]
  split_ifs <;> simp

/-- The byte that completes a sector adds the sector's share. -/
theorem completed_acc_accurateRip (b : Byte) (hlevel : s.level = 2351) (halg : s.alg = .accurateRip) :
    (drainSector (pushed b s)).acc = s.acc + arShare s (s.fifo ++ [b]) := by
  have hsector : (pushed b s).fifo.length = 2352 := by simpa [State.level] using hlevel
  rw [drainSector_acc_accurateRip (by simpa using halg), arSector_acc hsector]
  simp [arShare, sectorNumber]

/-! ## The branches of R168 -/

/-- Sectors 1 to 4 of the first track (R163). -/
theorem arShare_head (h : s.trackNumber = 1#8) (hn : sectorNumber s ≤ 4) : arShare s bytes = 0#32 :=
  if_pos ⟨h, hn⟩

/-- The fifth sector of the first track (R164). -/
theorem arShare_fifth (h : s.trackNumber = 1#8) (hn : sectorNumber s = 5) :
    arShare s bytes = BitVec.ofNat 32 (2940 * sampleAt bytes 587) := by
  rw [arShare, if_neg (by omega), if_pos ⟨h, hn⟩]

/-- The tail of the last track, past the head of a first one (R165). -/
theorem arShare_tail (hhead : s.trackNumber ≠ 1#8 ∨ 6 ≤ sectorNumber s) (h : s.trackNumber = s.trackCount)
    (hn : s.frameLength.toInt / 588 < (sectorNumber s : Int) + 5) : arShare s bytes = 0#32 := by
  have hskip : ¬ (s.trackNumber = 1#8 ∧ sectorNumber s ≤ 4) := fun ⟨hone, _⟩ =>
    hhead.elim (· hone) (by omega)
  have hfifth : ¬ (s.trackNumber = 1#8 ∧ sectorNumber s = 5) := fun ⟨hone, _⟩ =>
    hhead.elim (· hone) (by omega)
  rw [arShare, if_neg hskip, if_neg hfifth, if_pos ⟨h, hn⟩]

/-- A track that is neither first nor last (R167). -/
theorem arShare_inner (hfirst : s.trackNumber ≠ 1#8) (hlast : s.trackNumber ≠ s.trackCount) :
    arShare s bytes = BitVec.ofNat 32 (weighted (s.bytesConsumed.toNat / 4) 588 bytes) := by
  simp [arShare, hfirst, hlast]

/-- A sector's share depends on its 588 sample values alone. -/
theorem arShare_congr {bytes' : List Byte} (h : ∀ i < 588, sampleAt bytes i = sampleAt bytes' i) :
    arShare s bytes = arShare s bytes' := by
  have hweighted (base : Nat) : weighted base 588 bytes = weighted base 588 bytes' := by
    rw [weighted_eq_sum, weighted_eq_sum]
    exact Finset.sum_congr rfl fun i hi => by rw [h i (Finset.mem_range.mp hi)]
  rw [arShare, arShare, h 587 (by decide), hweighted]

/-- A sector of zeros adds nothing, whichever branch it takes (R169). -/
theorem arShare_zeros (h : ∀ i < 588, sampleAt bytes i = 0) : arShare s bytes = 0#32 := by
  have hweighted (base : Nat) : weighted base 588 bytes = 0 := by
    rw [weighted_eq_sum]
    exact Finset.sum_eq_zero fun i hi => by rw [h i (Finset.mem_range.mp hi), Nat.mul_zero]
  rw [arShare, h 587 (by decide), hweighted]
  simp

end Sys2Proof.Machine
end

section
/-! SUPPORT. `ACC` after a stream in AccurateRip mode is the sum of the shares of its sectors (42_accuraterip.md R168,
R170). -/

namespace Sys2Proof.Machine
open Claims (sampleAt weighted)

variable {s t u : State} {bytes : List Byte}

/-- The state with the counters `k` sectors further on (R161, 40_frame_assembler.md R123). -/
def State.afterSectors (k : Nat) (s : State) : State :=
  { s with
    discFrameCounter := s.discFrameCounter + BitVec.ofNat 64 k
    bytesConsumed := s.bytesConsumed + BitVec.ofNat 64 (2352 * k) }

theorem State.afterSectors_trackNumber (k : Nat) (s : State) : (s.afterSectors k).trackNumber = s.trackNumber := rfl

theorem State.afterSectors_zero (s : State) : s.afterSectors 0 = s := by
  simp [State.afterSectors]

theorem State.afterSectors_afterSectors (j k : Nat) (s : State) :
    (s.afterSectors j).afterSectors k = s.afterSectors (j + k) := by
  simp [State.afterSectors, Nat.mul_add, BitVec.ofNat_add, BitVec.add_assoc]

/-- The shares of the whole sectors of a run of bytes, the first of them drained in state `s`. -/
def arSum (s : State) (bytes : List Byte) : Word32 :=
  ∑ k ∈ Finset.range (bytes.length / 2352), arShare (s.afterSectors k) (bytes.drop (2352 * k))

/-- In AccurateRip mode `t` follows from `s` with the whole sectors that these bytes complete summed and counted. -/
def ArSummed (s t : State) (bytes : List Byte) : Prop :=
  s.alg = .accurateRip → t.acc = s.acc + arSum s (s.fifo ++ bytes) ∧
    t.discFrameCounter = s.discFrameCounter + BitVec.ofNat 64 ((s.fifo ++ bytes).length / 2352)

/-- The registers a sector's share is computed from. -/
structure SameShares (s u : State) : Prop where
  trackNumber : u.trackNumber = s.trackNumber
  trackCount : u.trackCount = s.trackCount
  frameLength : u.frameLength = s.frameLength
  bytesConsumed : u.bytesConsumed = s.bytesConsumed
  discFrameCounter : u.discFrameCounter = s.discFrameCounter

theorem SameShares.arShare_eq (h : SameShares s u) (bytes : List Byte) : arShare u bytes = arShare s bytes := by
  obtain ⟨hnumber, hcount, hlength, hconsumed, hframes⟩ := h
  rw [arShare, arShare, sectorNumber, sectorNumber, hnumber, hcount, hlength, hconsumed, hframes]

theorem SameShares.arSum_eq (h : SameShares s u) (bytes : List Byte) : arSum u bytes = arSum s bytes := by
  have hafter (k : Nat) : SameShares (s.afterSectors k) (u.afterSectors k) := by
    obtain ⟨hnumber, hcount, hlength, hconsumed, hframes⟩ := h
    exact ⟨hnumber, hcount, hlength, by simp only [State.afterSectors, hconsumed],
      by simp only [State.afterSectors, hframes]⟩
  exact Finset.sum_congr rfl fun k _ => (hafter k).arShare_eq _

/-- Equally many bytes with equal shares have equal sums. -/
theorem arSum_congr {bytes' : List Byte} (hlen : bytes.length = bytes'.length)
    (h : ∀ k < bytes.length / 2352, arShare (s.afterSectors k) (bytes.drop (2352 * k)) =
      arShare (s.afterSectors k) (bytes'.drop (2352 * k))) : arSum s bytes = arSum s bytes' := by
  rw [arSum, arSum, ← hlen]
  exact Finset.sum_congr rfl fun k hk => h k (Finset.mem_range.mp hk)

/-- The first sector is drained before those that follow. -/
theorem arSum_sector_append {sector : List Byte} (h : sector.length = 2352) (bytes : List Byte) :
    arSum s (sector ++ bytes) = arShare s sector + arSum (s.afterSectors 1) bytes := by
  have hcount : (sector ++ bytes).length / 2352 = bytes.length / 2352 + 1 := by
    rw [List.length_append]
    omega
  have hrest (k : Nat) : (sector ++ bytes).drop (2352 * (k + 1)) = bytes.drop (2352 * k) := by
    rw [Nat.mul_add, Nat.add_comm, ← List.drop_drop, Nat.mul_one, ← h, List.drop_left]
  have hfirst : arShare s (sector ++ bytes) = arShare s sector :=
    arShare_congr fun i hi => sampleAt_append_left (by omega) bytes
  rw [arSum, hcount, Finset.sum_range_succ', Nat.mul_zero, List.drop_zero, s.afterSectors_zero, hfirst, add_comm, arSum]
  simp only [hrest, State.afterSectors_afterSectors, Nat.add_comm 1]

/-- Below a sector nothing is summed. -/
theorem ArSummed.refl (h : s.level ≤ 2351) : ArSummed s s [] := fun _ => by
  have hnone : s.fifo.length / 2352 = 0 := Nat.div_eq_of_lt (Nat.lt_succ_of_le h)
  simp [arSum, hnone]

/-- A byte may stand in the FIFO or be still to come. -/
theorem ArSummed.of_append {held : List Byte} (h : ArSummed u t bytes) (halg : u.alg = s.alg) (hacc : u.acc = s.acc)
    (hshares : SameShares s u) (hfifo : u.fifo = s.fifo ++ held) : ArSummed s t (held ++ bytes) := fun har => by
  obtain ⟨hsum, hcount⟩ := h (halg.trans har)
  rw [hfifo, List.append_assoc] at hsum hcount
  exact ⟨by rw [hsum, hacc, hshares.arSum_eq], by rw [hcount, hshares.discFrameCounter]⟩

/-- A drained sector is summed before those that follow. -/
theorem ArSummed.of_completed {b : Byte} (h : ArSummed (completed b s) t bytes) (hlevel : s.level = 2351) :
    ArSummed s t (b :: bytes) := fun har => by
  have hsector : (s.fifo ++ [b]).length = 2352 := by simpa [State.level] using hlevel
  have hacc : (completed b s).acc = s.acc + arShare s (s.fifo ++ [b]) := by
    simpa using completed_acc_accurateRip b hlevel har
  have hfifo : (completed b s).fifo = [] := by simp
  have hframes : (completed b s).discFrameCounter = s.discFrameCounter + 1#64 := by simp [har]
  have hshares : SameShares (s.afterSectors 1) (completed b s) := by
    constructor <;> simp [State.afterSectors, har]
  obtain ⟨hsum, hcount⟩ := h (by simpa using har)
  rw [hfifo, List.nil_append] at hsum hcount
  rw [List.append_cons s.fifo b bytes]
  constructor
  · rw [hsum, hacc, hshares.arSum_eq, arSum_sector_append hsector, BitVec.add_assoc]
  · have hmore : ((s.fifo ++ [b]) ++ bytes).length / 2352 = 1 + bytes.length / 2352 := by
      rw [List.length_append, hsector]
      omega
    rw [hcount, hframes, hmore, BitVec.ofNat_add, BitVec.add_assoc]

/-- Every stream, from every state that takes one. -/
theorem runAll_stream_arSummed {r : List Instr} (hs : Streaming s) (hr : ∀ i ∈ r, isStream i = true) :
    ∃ t, runAll r s = .next t ∧ Streaming t ∧ ArSummed s t (dataOf r) :=
  runAll_stream_induct ArSummed
    (nil := fun _ hs => .refl hs.level_le)
    (chunk := fun _ _ _ _ _ h =>
      h.of_append (held := []) (by simp) (by simp) (by constructor <;> simp) (by simp))
    (below := fun _ b _ _ _ _ h =>
      h.of_append (held := [b]) (by simp) (by simp) (by constructor <;> simp) (by simp))
    (full := fun _ _ _ _ _ hl h => h.of_completed hl)
    r s hs hr

/-! ## From a fresh session -/

/-- A fresh session sums from zero, with nothing held. -/
theorem FreshRunning.stream_acc {r : List Instr} (hfresh : FreshRunning s) (halg : s.alg = .accurateRip)
    (offset : Word64) (hr : ∀ i ∈ r, isStream i = true) :
    ∃ t, runAll (.chunk offset :: r) s = .next t ∧ t.acc = arSum s (dataOf r) ∧
      t.discFrameCounter = BitVec.ofNat 64 ((dataOf r).length / 2352) := by
  obtain ⟨hfifo, hacc, -, hframes, -⟩ := hfresh.inv.no_chunk hfresh.no_chunk
  obtain ⟨t, hrun, -, hsummed⟩ :=
    runAll_stream_arSummed (chunked_streaming offset hfresh.running hfresh.inv.level_le) hr
  have hwhole : ArSummed s t (dataOf r) :=
    hsummed.of_append (held := []) (by simp) (by simp) (by constructor <;> simp) (by simp)
  obtain ⟨hsum, hcount⟩ := hwhole halg
  refine ⟨t, (runAll_cons r (execChunk_running offset hfresh.running)).trans hrun, ?_, ?_⟩
  · rw [hsum, hacc, hfifo, BitVec.zero_add, List.nil_append]
  · rw [hcount, hframes, hfifo, BitVec.zero_add, List.nil_append]

/-- The stream of one chunk packet. -/
theorem FreshRunning.packet_acc (hfresh : FreshRunning s) (halg : s.alg = .accurateRip) (offset : Word64)
    (bytes : List Byte) : ∃ t, runAll (chunkPacket offset bytes) s = .next t ∧ t.acc = arSum s bytes := by
  have hr : ∀ i ∈ bytes.map Instr.byte, isStream i = true := List.forall_mem_map.mpr fun _ _ => rfl
  obtain ⟨t, hrun, hacc, -⟩ := hfresh.stream_acc halg offset hr
  exact ⟨t, hrun, by rw [hacc, dataOf_bytes]⟩

/-- The sectors of a fresh session are numbered from 1. -/
theorem FreshRunning.sectorNumber_afterSectors (hfresh : FreshRunning s) {k : Nat} (h : k + 1 < 2 ^ 64) :
    sectorNumber (s.afterSectors k) = k + 1 := by
  obtain ⟨-, -, -, hframes, -⟩ := hfresh.inv.no_chunk hfresh.no_chunk
  rw [sectorNumber, State.afterSectors, hframes, BitVec.zero_add, ← BitVec.ofNat_add, BitVec.toNat_ofNat,
    Nat.mod_eq_of_lt h]

/-- On the first track sector 5 gives its last sample, sample 2939 of the stream. -/
theorem FreshRunning.arShare_fifth (hfresh : FreshRunning s) (hfirst : s.trackNumber = 1#8) (bytes : List Byte) :
    arShare (s.afterSectors 4) (bytes.drop (2352 * 4)) = BitVec.ofNat 32 (2940 * sampleAt bytes 2939) := by
  have hn : sectorNumber (s.afterSectors 4) = 5 := hfresh.sectorNumber_afterSectors (k := 4) (by decide)
  rw [Machine.arShare_fifth ((s.afterSectors_trackNumber 4).trans hfirst) hn, sampleAt_sector]

/-- On the first track, where the last sample of sector 5 is the only one that is not zero, it is the whole sum. -/
theorem FreshRunning.arSum_fifth (hfresh : FreshRunning s) (hfirst : s.trackNumber = 1#8)
    (hlen : 11760 ≤ bytes.length) (hzero : ∀ j ≠ 2939, sampleAt bytes j = 0) :
    arSum s bytes = BitVec.ofNat 32 (2940 * sampleAt bytes 2939) := by
  have hfifth : 4 ∈ Finset.range (bytes.length / 2352) := Finset.mem_range.mpr (by omega)
  have hothers (k : Nat) (hk : k ≠ 4) : arShare (s.afterSectors k) (bytes.drop (2352 * k)) = 0#32 :=
    arShare_zeros fun i hi => by rw [sampleAt_sector, hzero _ (by omega)]
  rw [arSum, Finset.sum_eq_single 4 (fun k _ => hothers k) (absurd hfifth), hfresh.arShare_fifth hfirst]

/-- On a track that is neither first nor last, sector `k` gets the weights from `588 k + 1` on; `bytesConsumed` may have
wrapped, since 2^64 / 4 is 0 modulo 2^32. -/
theorem FreshRunning.arShare_inner (hfresh : FreshRunning s) (hfirst : s.trackNumber ≠ 1#8)
    (hlast : s.trackNumber ≠ s.trackCount) (k : Nat) (bytes : List Byte) :
    arShare (s.afterSectors k) (bytes.drop (2352 * k)) =
      BitVec.ofNat 32 (∑ i ∈ Finset.range 588, (588 * k + i + 1) * sampleAt bytes (588 * k + i)) := by
  obtain ⟨-, -, hconsumed, -⟩ := hfresh.inv.no_chunk hfresh.no_chunk
  have hbase : ((2352 * k) % 2 ^ 64 / 4 : Nat) ≡ 588 * k [MOD 2 ^ 32] := by
    unfold Nat.ModEq
    omega
  rw [Machine.arShare_inner (s := s.afterSectors k) hfirst hlast, weighted_eq_sum, State.afterSectors, hconsumed,
    BitVec.zero_add, BitVec.toNat_ofNat]
  simp only [sampleAt_sector]
  apply BitVec.eq_of_toNat_eq
  simp only [BitVec.toNat_ofNat]
  exact Nat.ModEq.sum fun i _ => ((hbase.add_right i).add_right 1).mul_right _

end Sys2Proof.Machine
end

section
namespace Sys2Proof.Claims
open Sys2Proof.Machine

/-- Settles O26: the drain adds the share of the sector, whose branches are those of R168. -/
theorem arSectorFollowsTheRule : Obligations.ArSectorFollowsTheRule := by
  intro s b hrunning hvalid hlevel halg
  dsimp only
  have hcount : (drainSector (pushed b s)).discFrameCounter = s.discFrameCounter + 1#64 := by simp [halg]
  refine (execByte_complete b hrunning hvalid hlevel).trans
    (congrArg _ (completed_eq_drained hlevel ?_ hcount))
  rw [completed_acc_accurateRip b hlevel halg, arShare, sectorNumber]
  split_ifs <;> simp [BitVec.ofNat_add]

/-- Settles O40: the sectors' sums are consecutive parts of one sum. -/
theorem accurateRipOfTheStream : Obligations.AccurateRipOfTheStream := by
  intro s offset r hfresh halg hfirst hlast hr
  obtain ⟨t, hrun, hacc, hcount⟩ := hfresh.stream_acc halg offset hr
  refine ⟨t, hrun, ?_, hcount⟩
  rw [hacc, arSum, sectors]
  simp only [hfresh.arShare_inner hfirst hlast]
  induction (dataOf r).length / 2352 with
  | zero => rfl
  | succ k ih =>
    rw [Finset.sum_range_succ, ih, weighted_eq_sum, weighted_eq_sum, Nat.mul_succ, Finset.sum_range_add,
      BitVec.ofNat_add]
    simp only [Nat.zero_add]

/-- Settles O41: the fifth sector gives its last sample, and the samples of every other sector are zero. -/
theorem fifthSectorGivesItsLastSample : Obligations.FifthSectorGivesItsLastSample := by
  intro s offset b0 b1 b2 b3 m hfresh halg hfirst _
  obtain ⟨t, hrun, hacc⟩ := hfresh.packet_acc halg offset
    (List.replicate 11756 0#8 ++ [b0, b1, b2, b3] ++ List.replicate m 0#8)
  have hsample := sampleAt_single (p := 11756) (q := 2939) (sample := [b0, b1, b2, b3]) rfl rfl m
  refine ⟨t, hrun, ?_⟩
  rw [hacc, hfresh.arSum_fifth hfirst _ fun j hj => (hsample j).trans (if_neg hj), hsample, if_pos rfl]
  rw [List.length_append, List.length_append, List.length_replicate]
  exact Nat.le_add_right 11760 _

/-- Settles O42: sectors 1 to 4 are skipped, of the fifth only the last sample counts, and that sample and the
sectors behind it stand in the common rest. -/
theorem headSkipHidesTheHead : Obligations.HeadSkipHidesTheHead := by
  intro s offset head head' rest hfresh halg hfirst hhead hhead' _
  obtain ⟨t, hrun, hacc⟩ := hfresh.packet_acc halg offset (head ++ rest)
  obtain ⟨t', hrun', hacc'⟩ := hfresh.packet_acc halg offset (head' ++ rest)
  have hcommon (j : Nat) (hj : 2939 ≤ j) : sampleAt (head ++ rest) j = sampleAt (head' ++ rest) j := by
    rw [sampleAt_append_right hhead hj, sampleAt_append_right hhead' hj]
  have hlen : (head ++ rest).length = (head' ++ rest).length := by
    rw [List.length_append, List.length_append, hhead, hhead']
  refine ⟨t, t', hrun, hrun', ?_⟩
  rw [hacc, hacc']
  refine arSum_congr hlen fun k _ => ?_
  rcases lt_trichotomy k 4 with hskipped | rfl | hbehind
  · have hn : sectorNumber (s.afterSectors k) = k + 1 := hfresh.sectorNumber_afterSectors (by omega)
    have hnone (bytes : List Byte) : arShare (s.afterSectors k) bytes = 0#32 := arShare_head hfirst (by omega)
    rw [hnone, hnone]
  · rw [hfresh.arShare_fifth hfirst, hfresh.arShare_fifth hfirst, hcommon _ le_rfl]
  · refine arShare_congr fun i _ => ?_
    rw [sampleAt_sector, sampleAt_sector, hcommon _ (by omega)]

/-- Settles O43: the sectors in front of the tail are the common ones, and those of the tail are skipped. -/
theorem tailSkipHidesTheTail : Obligations.TailSkipHidesTheTail := by
  intro s offset kept tail tail' n hfresh halg hlast hn hexception hkept htail hshort
  obtain ⟨t, hrun, hacc⟩ := hfresh.packet_acc halg offset (kept ++ tail)
  obtain ⟨t', hrun', hacc'⟩ := hfresh.packet_acc halg offset (kept ++ tail')
  have hlen : (kept ++ tail).length = (kept ++ tail').length := by
    rw [List.length_append, List.length_append, htail]
  refine ⟨t, t', hrun, hrun', ?_⟩
  rw [hacc, hacc']
  refine arSum_congr hlen fun k hk => ?_
  rcases Nat.lt_or_ge k (n - 5) with hbefore | hbehind
  · refine arShare_congr fun i hi => ?_
    have hinside : 4 * (588 * k + i) + 4 ≤ kept.length := by omega
    rw [sampleAt_sector, sampleAt_sector, sampleAt_append_left hinside, sampleAt_append_left hinside]
  · have hnumber : sectorNumber (s.afterSectors k) = k + 1 := by
      rw [List.length_append] at hk
      exact hfresh.sectorNumber_afterSectors (by omega)
    have hhead : s.trackNumber ≠ 1#8 ∨ 6 ≤ sectorNumber (s.afterSectors k) :=
      hexception.imp_right fun hten => by omega
    have hskipped : s.frameLength.toInt / 588 < (sectorNumber (s.afterSectors k) : Int) + 5 := by omega
    have hnone (bytes : List Byte) : arShare (s.afterSectors k) bytes = 0#32 :=
      arShare_tail hhead hlast hskipped
    rw [hnone, hnone]

end Sys2Proof.Claims
end

section
/-! SUPPORT. The session commands as record updates, in the states they are legal in (43_session.md R191 to R201), and
their words. -/

namespace Sys2Proof.Machine

variable {s : State}

/-! ## The word of a command whose operand is all value or all reserved -/

/-- A word of a command that reserves no operand bit is checked for its state only (30_encoding.md R95, R101). -/
theorem step_word_unreserved {rest : List CmdWord} (op : Opcode) (x : Word64) {p : Prop} [Decidable p]
    (hp : s.cmdPort = cmdWord op.code x :: rest) (hlegal : legalIn op s.st = true ↔ p)
    (hmask : op.reservedMask = 0#64) :
    step s =
      if ¬ p then .next (rejectedState .state (s.withPort rest)) else exec (op.build x) (s.withPort rest) := by
  have hfree : x &&& op.reservedMask = 0#64 := by rw [hmask, BitVec.and_zero]
  rw [step_word op x hp hlegal, if_neg (not_not.mpr hfree)]

/-- A word of a command without operand is checked for its state, and then for a zero operand field. -/
theorem step_word_no_operand {rest : List CmdWord} (op : Opcode) (x : Word64) {p : Prop} [Decidable p]
    (hp : s.cmdPort = cmdWord op.code x :: rest) (hlegal : legalIn op s.st = true ↔ p)
    (hmask : op.reservedMask = BitVec.allOnes 64) :
    step s =
      if ¬ p then .next (rejectedState .state (s.withPort rest))
      else if x ≠ 0#64 then .next (rejectedState .operand (s.withPort rest))
      else exec (op.build x) (s.withPort rest) := by
  have hwhole : x &&& op.reservedMask = x := by rw [hmask, BitVec.and_allOnes]
  rw [step_word op x hp hlegal, hwhole]

theorem setalg_operand_reserved_iff (x : Word64) : x &&& Opcode.setalg.reservedMask = 0#64 ↔ x >>> 1 = 0#64 :=
  and_high_mask 1 x _ (by decide)

theorem settrk_operand_reserved_iff (x : Word64) : x &&& Opcode.settrk.reservedMask = 0#64 ↔ x >>> 16 = 0#64 :=
  and_high_mask 16 x _ (by decide)

/-- Bit 0 of the operand selects the algorithm (30_encoding.md R98). -/
theorem algorithm_of_bit (x : Word64) :
    Algorithm.ofCode (x.extractLsb' 0 1) = if x.getLsbD 0 then .accurateRip else .crc32 := by
  have hbit : x.extractLsb' 0 1 = BitVec.ofBool (x.getLsbD 0) := by
    ext k hk
    obtain rfl : k = 0 := by omega
    simp
  rw [hbit]
  cases x.getLsbD 0 <;> rfl

/-! ## Configuration and the failures -/

theorem exec_setalg_created (alg : Algorithm) (h : s.st = .created) :
    exec (.setalg alg) s = .next (okState [] { s with alg := alg }) :=
  whenLegal_of_legal (by simp [legalIn, h]) _

theorem exec_settrk_created (number count : Byte) (h : s.st = .created) :
    exec (.settrk number count) s = .next (okState [] { s with trackNumber := number, trackCount := count }) :=
  whenLegal_of_legal (by simp [legalIn, h]) _

theorem exec_setstart_created (x : Word64) (h : s.st = .created) :
    exec (.setstart x) s = .next (okState [] { s with frameStart := x }) :=
  whenLegal_of_legal (by simp [legalIn, h]) _

theorem exec_setlen_created (x : Word64) (h : s.st = .created) :
    exec (.setlen x) s = .next (okState [] { s with frameLength := x }) :=
  whenLegal_of_legal (by simp [legalIn, h]) _

theorem exec_notfound_created (h : s.st = .created) :
    exec .notfound s = .next (okState [.error .notFound 0#64] { s with err := some .notFound, st := .failed }) :=
  (whenLegal_of_legal (by simp [legalIn, h]) _).trans (raiseFatal_eq rfl [])

theorem legalIn_cancel : legalIn .cancel s.st = true ↔ ¬ (s.st = .stopped ∨ s.st = .failed) := by
  cases s.st <;> decide

theorem exec_cancel (h : ¬ (s.st = .stopped ∨ s.st = .failed)) :
    exec .cancel s =
      .next (okState (stopEvents s ++ [.error .cancelled 0#64]) { s with err := some .cancelled, st := .failed }) :=
  (whenLegal_of_legal (legalIn_cancel.mpr h) _).trans (raiseFatal_eq rfl _)

/-! ## The length -/

theorem exec_start_unknown (h : s.st = .created) (hlength : s.frameLength.toInt < 0) :
    exec .start s = .next (okState [.queryLen] { s with st := .started }) := by
  have hunknown : lengthUnknown s = true := by rwa [lengthUnknown, signed64_eq_toInt, decide_eq_true_eq]
  refine (whenLegal_of_legal (by simp [legalIn, h]) _).trans ?_
  rw [if_pos hunknown, accept_eq]

theorem exec_start_known (h : s.st = .created) (hlength : 0 ≤ s.frameLength.toInt) :
    exec .start s = .next (okState [seekEvent s] s.resolve) := by
  have hknown : ¬ lengthUnknown s = true := by
    rwa [lengthUnknown, signed64_eq_toInt, decide_eq_true_eq, not_lt]
  refine (whenLegal_of_legal (by simp [legalIn, h]) _).trans ?_
  rw [if_neg hknown, accept_eq]

theorem exec_duration_rejected {total : Word64} (h : s.st = .started)
    (hout : total.toNat < s.frameStart.toNat ∨ 2 ^ 63 - 1 < total.toNat - s.frameStart.toNat) :
    exec (.duration total) s = .next (rejectedState .operand s) := by
  have hnone : durationLength total s = none := if_pos hout
  refine (whenLegal_of_legal (by simp [legalIn, h]) _).trans ?_
  rw [hnone, reject_eq]

/-- The resolved length is the one whose range ends at `total - 1`. -/
theorem exec_duration_resolved {total : Word64} (h : s.st = .started) (hstart : s.frameStart.toNat ≤ total.toNat)
    (hlength : total.toNat - s.frameStart.toNat ≤ 2 ^ 63 - 1) :
    exec (.duration total) s = .next (okState [.seek s.frameStart (total - 1#64)]
      { s with frameLength := total - s.frameStart, frameEnd := total - 1#64, st := .running }) := by
  have hsome : durationLength total s = some (total - s.frameStart) :=
    if_neg (not_or.mpr ⟨not_lt.mpr hstart, not_lt.mpr hlength⟩)
  have hresolve : State.resolve { s with frameLength := total - s.frameStart } =
      { s with frameLength := total - s.frameStart, frameEnd := total - 1#64, st := .running } := by
    rw [State.resolve, resolve_end, add_sub_cancel]
  refine (whenLegal_of_legal (by simp [legalIn, h]) _).trans ?_
  simp only [hsome, accept_eq, seekEvent, hresolve]

/-! ## The end of the stream -/

theorem finalize_truncated (h : lastOffset s ≠ s.frameEnd) :
    finalize s = .next (okState [.error .truncatedRange (missingSamples s), .done s.acc]
      { s with err := some .truncatedRange, missing := missingSamples s, st := .stopped }) :=
  if_pos (bne_iff_ne.mpr h)

theorem finalize_whole (h : lastOffset s = s.frameEnd) :
    finalize s = .next (okState [.done s.acc] { s with st := .stopped }) :=
  if_neg (by simp [rangeTruncated, h])

/-- The tests of `EOS` in their order (60_exceptions.md R252). -/
theorem exec_eos_running (h : s.st = .running) :
    exec .eos s =
      if s.firstValid = false then
        .next (okState [.error .noData 0#64] { s with err := some .noData, st := .failed })
      else if s.level % 4 ≠ 0 then
        .next (okState [.error .alignment 0#64] { s with err := some .alignment, st := .failed })
      else finalize s := by
  refine (whenLegal_of_legal (by simp [legalIn, h]) _).trans ?_
  simp only [Bool.not_eq_true', ← Bool.not_eq_true, sampleComplete_iff, raiseFatal_eq (e := .noData) rfl,
    raiseFatal_eq (e := .alignment) rfl, List.nil_append, ne_eq]

end Sys2Proof.Machine
end

section
namespace Sys2Proof.Claims
open Sys2Proof.Machine

/-- Settles O12: in `Created` only `ALG` is written, and the word is checked for its state and then for its bits
above bit 0. -/
theorem setalgWritesTheAlgorithm : Obligations.SetalgWritesTheAlgorithm := by
  refine ⟨fun s alg hcreated => exec_setalg_created alg hcreated, fun s x rest => ?_⟩
  refine (step_word (s := offering _ rest s) .setalg x rfl (p := s.st = .created) beq_iff_eq).trans
    (ite_congr rfl (fun _ => rfl) fun hcreated =>
      ite_congr (congrArg Not (propext (setalg_operand_reserved_iff x))) (fun _ => rfl) fun _ => ?_)
  rw [← algorithm_of_bit]
  exact exec_setalg_created _ (not_not.mp hcreated)

/-- Settles O13: in `Created` both track registers are written, from the two low bytes of the operand. -/
theorem settrkWritesBothTrackRegisters : Obligations.SettrkWritesBothTrackRegisters := by
  refine ⟨fun s number count hcreated => exec_settrk_created number count hcreated, fun s x rest => ?_⟩
  exact (step_word (s := offering _ rest s) .settrk x rfl (p := s.st = .created) beq_iff_eq).trans
    (ite_congr rfl (fun _ => rfl) fun hcreated =>
      ite_congr (congrArg Not (propext (settrk_operand_reserved_iff x))) (fun _ => rfl) fun _ =>
        exec_settrk_created _ _ (not_not.mp hcreated))

/-- Settles O14: in `Created` only `frameStart` is written, and every operand is a value. -/
theorem setstartWritesFrameStart : Obligations.SetstartWritesFrameStart := by
  refine ⟨fun s x hcreated => exec_setstart_created x hcreated, fun s x rest => ?_⟩
  exact (step_word_unreserved (s := offering _ rest s) .setstart x rfl (p := s.st = .created) beq_iff_eq rfl).trans
    (ite_congr rfl (fun _ => rfl) fun hcreated => exec_setstart_created x (not_not.mp hcreated))

/-- Settles O15: in `Created` only `frameLength` is written, and every operand is a value. -/
theorem setlenWritesFrameLength : Obligations.SetlenWritesFrameLength := by
  refine ⟨fun s x hcreated => exec_setlen_created x hcreated, fun s x rest => ?_⟩
  exact (step_word_unreserved (s := offering _ rest s) .setlen x rfl (p := s.st = .created) beq_iff_eq rfl).trans
    (ite_congr rfl (fun _ => rfl) fun hcreated => exec_setlen_created x (not_not.mp hcreated))

/-- Settles O16: the sign of `frameLength` decides between the question and the resolve step. -/
theorem startAsksOrResolves : Obligations.StartAsksOrResolves := by
  refine ⟨fun s hcreated hunknown => exec_start_unknown hcreated hunknown, fun s hcreated hknown => ?_,
    fun s x rest =>
      step_word_no_operand (s := offering _ rest s) .start x rfl (p := s.st = .created) beq_iff_eq rfl⟩
  rw [exec_start_known hcreated hknown, seekEvent, State.resolve, signed64_eq_toInt]
  rfl

/-- Settles O17: inside its bounds the length is `total - frameStart` and its range ends at `total - 1`. -/
theorem durationResolvesTheLength : Obligations.DurationResolvesTheLength := by
  refine ⟨fun s total hstarted hstart hlength => ?_, fun s total hstarted hout => exec_duration_rejected hstarted hout,
    fun s x rest =>
      step_word_unreserved (s := offering _ rest s) .duration x rfl (p := s.st = .started) beq_iff_eq rfl⟩
  rw [← BitVec.toNat_sub_of_le hstart, BitVec.ofNat_toNat, BitVec.setWidth_eq]
  exact exec_duration_resolved hstarted hstart hlength

/-- Settles O18: in `Created` it raises its fatal error and writes nothing else. -/
theorem notfoundFailsTheTask : Obligations.NotfoundFailsTheTask :=
  ⟨fun _ hcreated => exec_notfound_created hcreated, fun s x rest =>
    step_word_no_operand (s := offering _ rest s) .notfound x rfl (p := s.st = .created) beq_iff_eq rfl⟩

/-- Settles O19: it raises its fatal error, and `STOP` goes first when a request is outstanding. -/
theorem cancelFailsTheTask : Obligations.CancelFailsTheTask := by
  refine ⟨fun s hcreated => ?_, fun s houtstanding => ?_, fun s x rest => ?_⟩
  · rw [exec_cancel (by simp [hcreated]), stopEvents, if_neg (by simp [hcreated])]
    rfl
  · rw [exec_cancel (by rcases houtstanding with h | h <;> simp [h]), stopEvents, if_pos houtstanding]
    rfl
  · exact (step_word_no_operand (s := offering _ rest s) .cancel x rfl legalIn_cancel rfl).trans
      (ite_congr (propext not_not) (fun _ => rfl) fun _ => rfl)

/-- Settles O20: the three tests in their order, the last one being `finalize`'s. -/
theorem eosFinalizesOrFails : Obligations.EosFinalizesOrFails := by
  refine ⟨fun s hrunning => ?_, fun s x rest =>
    step_word_no_operand (s := offering _ rest s) .eos x rfl (p := s.st = .running) beq_iff_eq rfl⟩
  rw [exec_eos_running hrunning, State.level]
  split_ifs with hnodata halignment htruncated
  · rfl
  · rfl
  · exact finalize_truncated htruncated
  · exact finalize_whole (not_not.mp htruncated)

end Sys2Proof.Claims
end

section
/-! SUPPORT. The lifecycle: where each command is legal, what leaves `ST` and `ERR`, and the terminal states
(43_session.md R204, R205). -/

namespace Sys2Proof.Machine

variable {s t : State}

/-- The states of the transition table are those of the opcode map (30_encoding.md R93). -/
theorem legalIn_iff_executableIn (i : Instr) (st : Lifecycle) :
    legalIn i.opcode st = true ↔ st ∈ Claims.executableIn i := by
  cases i <;> cases st <;> simp [legalIn, Instr.opcode, Claims.executableIn]

/-- The commands that the access matrix (10_state.md R42) lets write neither `ST` nor `ERR`. -/
theorem exec_keeps_lifecycle {i : Instr} (h : exec i s = .next t)
    (hop : i.opcode ∉ [.notfound, .start, .duration, .cancel, .eos]) : t.st = s.st ∧ t.err = s.err := by
  obtain ⟨hst, herr, -⟩ := Claims.onlyTheMatrixWrites i s t h
  have hsub : ([.notfound, .cancel, .eos] : List Opcode) ⊆ [.notfound, .start, .duration, .cancel, .eos] := by decide
  exact ⟨not_imp_comm.mp hst hop, not_imp_comm.mp herr (mt (@hsub _) hop)⟩

/-- `Stopped` and `Failed`, which no command leaves. -/
abbrev State.Terminal (s : State) : Prop := s.st = .stopped ∨ s.st = .failed

theorem legalIn_terminal {op : Opcode} (h : s.Terminal) (hop : op ≠ .rd) : legalIn op s.st = false := by
  revert hop
  rcases h with h | h <;> rw [h] <;> cases op <;> decide

/-- In a terminal state a command gives an answer and nothing else. -/
theorem exec_terminal {i : Instr} (hterminal : s.Terminal) (h : exec i s = .next t) :
    ∃ r events, t = s.respond r events := by
  by_cases hop : i.opcode = .rd
  · cases i <;> cases hop
    cases (execRd_eq _).symm.trans h
    exact ⟨_, _, rfl⟩
  · cases (exec_illegal (legalIn_terminal hterminal hop)).symm.trans h
    exact ⟨_, _, rfl⟩

end Sys2Proof.Machine
end

section
namespace Sys2Proof.Claims
open Sys2Proof.Machine

/-- The entries of the transition table, command by command (43_session.md R204). -/
theorem exec_transition {i : Instr} {s t : State} (hlegal : s.st ∈ executableIn i) (h : exec i s = .next t) :
    (t.st, t.err) = transition i s := by
  cases i
  case notfound =>
    cases (exec_notfound_created (List.mem_singleton.mp hlegal)).symm.trans h
    rfl
  case start =>
    have hcreated : s.st = .created := List.mem_singleton.mp hlegal
    rw [transition]
    split_ifs with hunknown
    · cases (exec_start_unknown hcreated hunknown).symm.trans h
      rfl
    · cases (exec_start_known hcreated (not_lt.mp hunknown)).symm.trans h
      rfl
  case duration total =>
    have hstarted : s.st = .started := List.mem_singleton.mp hlegal
    rw [transition]
    split_ifs with hbounds
    · cases (exec_duration_resolved hstarted hbounds.1 hbounds.2).symm.trans h
      rfl
    · rw [not_and_or, not_le, not_le] at hbounds
      cases (exec_duration_rejected hstarted hbounds).symm.trans h
      exact congrArg (·, s.err) hstarted
  case cancel =>
    have hopen : ¬ s.Terminal := legalIn_cancel.mp ((legalIn_iff_executableIn .cancel s.st).mpr hlegal)
    cases (exec_cancel hopen).symm.trans h
    rfl
  case eos =>
    rw [exec_eos_running (List.mem_singleton.mp hlegal), State.level] at h
    rw [transition]
    split_ifs at h ⊢ with hnodata halignment htruncated
    · cases h
      rfl
    · cases h
      rfl
    · cases (finalize_truncated htruncated).symm.trans h
      rfl
    · cases (finalize_whole (not_not.mp htruncated)).symm.trans h
      rfl
  all_goals exact Prod.ext_iff.mpr (exec_keeps_lifecycle h (by simp [Instr.opcode]))

/-- Settles O21: outside its states a command is illegal, and inside them each command makes its entry. -/
theorem transitionTable : Obligations.TransitionTable := by
  refine ⟨fun i s hout => ?_, fun i s t hlegal h => exec_transition hlegal h, fun s b _ hearly =>
    execByte_early b hearly⟩
  exact exec_illegal (Bool.eq_false_iff.mpr (mt (legalIn_iff_executableIn i s.st).mp hout))

/-- Settles O57: every command but `RD` is illegal in a terminal state, and `RD`, an idle step and a rejected word
write no register. -/
theorem terminalStatesAreFinal : Obligations.TerminalStatesAreFinal := by
  refine fun s hterminal => ⟨fun i hop => exec_illegal (legalIn_terminal hterminal hop), fun t hstep => ?_⟩
  obtain ⟨-, rfl⟩ | ⟨w, rest, -, ⟨i, -, hexec⟩ | ⟨-, r, rfl⟩⟩ := step_next hstep
  · rfl
  · obtain ⟨r, events, rfl⟩ := exec_terminal (s := s.withPort rest) hterminal hexec
    rfl
  · rfl

end Sys2Proof.Claims
end

section
/-! SUPPORT. The progress reports: which command makes one, its values, and the reports of a stream (43_session.md
R202, R203). -/

namespace Sys2Proof.Machine

variable {s t u : State} {bytes : List Byte}

/-! ## Which command reports -/

/-- `t` follows from `s` with one more answer, which holds no `PROGRESS`. -/
def Quiet (s t : State) : Prop :=
  ∃ a, t.answers = s.answers ++ [a] ∧ ∀ num den, Event.progress num den ∉ a.events

theorem Quiet.respond (r : Response) {events : List Event} (hsame : u.answers = s.answers)
    (hevents : ∀ num den, Event.progress num den ∉ events) : Quiet s (u.respond r events) :=
  ⟨_, congrArg (· ++ _) hsame, hevents⟩

theorem Quiet.rejected (r : Reason) (s : State) : Quiet s (rejectedState r s) :=
  .respond _ rfl (by simp)

/-- The `BYTE` that completes a sector is the one command that is not quiet. -/
theorem exec_quiet_or_drains {i : Instr} (h : exec i s = .next t) :
    Quiet s t ∨ (i.opcode = .byte ∧ s.st = .running ∧ s.firstValid = true ∧ s.level = 2351) := by
  cases i
  case byte b =>
    obtain rfl | ⟨-, -, -, rfl⟩ | ⟨hrunning, hvalid, hlevel, -⟩ := execByte_next h
    · exact .inl (.rejected _ s)
    · exact .inl (.respond _ (by simp) (by simp))
    · exact .inr ⟨rfl, hrunning, hvalid, hlevel⟩
  all_goals left
  case setalg => obtain rfl | ⟨-, rfl⟩ := execSetalg_next h <;> exact .respond _ rfl (by simp)
  case settrk => obtain rfl | ⟨-, rfl⟩ := execSettrk_next h <;> exact .respond _ rfl (by simp)
  case setstart => obtain rfl | ⟨-, rfl⟩ := execSetstart_next h <;> exact .respond _ rfl (by simp)
  case setlen => obtain rfl | ⟨-, rfl⟩ := execSetlen_next h <;> exact .respond _ rfl (by simp)
  case notfound => obtain rfl | ⟨-, rfl⟩ := execNotfound_next h <;> exact .respond _ rfl (by simp)
  case start =>
    obtain rfl | ⟨-, -, rfl⟩ | ⟨-, -, rfl⟩ := execStart_next h <;> exact .respond _ rfl (by simp [seekEvent])
  case duration =>
    obtain rfl | ⟨-, -, rfl⟩ | ⟨-, _, -, rfl⟩ := execDuration_next h <;> exact .respond _ rfl (by simp [seekEvent])
  case cancel =>
    obtain rfl | ⟨-, rfl⟩ := execCancel_next h
    · exact .rejected _ s
    · refine .respond _ rfl fun num den => ?_
      unfold stopEvents
      split_ifs <;> simp
  case chunk => obtain rfl | ⟨-, rfl⟩ := execChunk_next h <;> exact .respond _ (by simp) (by simp)
  case eos =>
    obtain rfl | ⟨-, -, rfl⟩ | ⟨-, -, -, rfl⟩ | ⟨-, -, -, -, rfl⟩ | ⟨-, -, -, -, rfl⟩ := execEos_next h <;>
      exact .respond _ rfl (by simp)
  case rd reg =>
    cases (execRd_eq reg).symm.trans h
    exact .respond _ rfl (by simp)

/-! ## The values of a report -/

/-- A number of samples that stops at the length of the range. -/
def clampedSamples (samples : Nat) (frameLength : Word64) : Word64 := BitVec.ofNat 64 (min samples frameLength.toNat)

theorem clampedSamples_toNat (samples : Nat) (frameLength : Word64) :
    (clampedSamples samples frameLength).toNat = min samples frameLength.toNat := by
  rw [clampedSamples, BitVec.toNat_ofNat]
  exact Nat.mod_eq_of_lt ((min_le_right _ _).trans_lt frameLength.isLt)

theorem toInt_eq_toNat_of_nonneg {v : Word64} (h : 0 ≤ v.toInt) : v.toInt = v.toNat := by
  rw [BitVec.toInt_eq_toNat_cond] at h ⊢
  have := v.isLt
  split_ifs at h ⊢ <;> omega

/-- With a length that is not negative the pair of R202 needs no reduction modulo 2^64. -/
theorem progressOf_eq {frameLength : Word64} (h : 0 ≤ frameLength.toInt) (bytesConsumed : Word64) :
    Claims.progressOf bytesConsumed frameLength =
      .progress (clampedSamples (bytesConsumed.toNat / 4) frameLength) frameLength := by
  rw [Claims.progressOf, toInt_eq_toNat_of_nonneg h, ← Nat.cast_min, BitVec.ofInt_natCast, BitVec.ofInt_natCast,
    BitVec.ofNat_toNat, BitVec.setWidth_eq, clampedSamples]

theorem progressEvent_completed (b : Byte) (s : State) :
    progressEvent (drainSector (pushed b s)) = Claims.progressOf (s.bytesConsumed + 2352#64) s.frameLength := by
  simp [progressEvent_eq]

/-! ## The reports of a stream -/

/-- The reports of the next `k` sectors. -/
def reports (s : State) (k : Nat) : List Event :=
  (List.range k).map fun j => Claims.progressOf (s.bytesConsumed + BitVec.ofNat 64 (2352 * (j + 1))) s.frameLength

theorem reports_congr (hcount : u.bytesConsumed = s.bytesConsumed) (hlength : u.frameLength = s.frameLength)
    (k : Nat) : reports u k = reports s k := by
  rw [reports, reports, hcount, hlength]

theorem reports_succ (hcount : u.bytesConsumed = s.bytesConsumed + 2352#64) (hlength : u.frameLength = s.frameLength)
    (k : Nat) :
    reports s (k + 1) = Claims.progressOf (s.bytesConsumed + 2352#64) s.frameLength :: reports u k := by
  have hstep (j : Nat) : s.bytesConsumed + 2352#64 + BitVec.ofNat 64 (2352 * (j + 1)) =
      s.bytesConsumed + BitVec.ofNat 64 (2352 * (j + 1 + 1)) := by
    rw [BitVec.add_assoc, ← BitVec.ofNat_add, Nat.mul_succ 2352 (j + 1), Nat.add_comm]
  simp only [reports, List.range_succ_eq_map, List.map_cons, List.map_map, hcount, hlength, hstep]
  rfl

/-- As numbers: each sector adds its 588 samples, as long as `bytesConsumed` does not wrap. -/
theorem reports_eq {k : Nat} (hlength : 0 ≤ s.frameLength.toInt) (hwrap : s.bytesConsumed.toNat + 2352 * k < 2 ^ 64) :
    reports s k = (List.range k).map fun j =>
      .progress (clampedSamples (s.bytesConsumed.toNat / 4 + 588 * (j + 1)) s.frameLength) s.frameLength := by
  refine List.map_congr_left fun j hj => ?_
  have hjk : j < k := List.mem_range.mp hj
  have hsamples : (s.bytesConsumed + BitVec.ofNat 64 (2352 * (j + 1))).toNat / 4 =
      s.bytesConsumed.toNat / 4 + 588 * (j + 1) := by
    rw [BitVec.toNat_add, BitVec.toNat_ofNat]
    omega
  rw [progressOf_eq hlength, hsamples]

/-- `t` follows from `s` when these bytes are received at most: whole sectors are reported, one after the other, and
no other event is emitted. -/
def SectorReports (s t : State) (bytes : List Byte) : Prop :=
  ∃ new k, t.answers = s.answers ++ new ∧ 2352 * k ≤ s.level + bytes.length ∧
    new.flatMap Answer.events = reports s k

theorem SectorReports.refl (s : State) (bytes : List Byte) : SectorReports s s bytes :=
  ⟨[], 0, (List.append_nil _).symm, Nat.zero_le _, rfl⟩

/-- A command without events that counts nothing may go first. -/
theorem SectorReports.of_silent {bytes' : List Byte} {r : Response} (h : SectorReports u t bytes)
    (hanswer : u.answers = s.answers ++ [{ response := r, events := [] }])
    (hcount : u.bytesConsumed = s.bytesConsumed) (hlength : u.frameLength = s.frameLength)
    (hheld : u.level + bytes.length ≤ s.level + bytes'.length) : SectorReports s t bytes' := by
  obtain ⟨new, k, hnew, hk, hevents⟩ := h
  refine ⟨_ :: new, k, by rw [hnew, hanswer, ← List.append_cons], hk.trans hheld, ?_⟩
  rw [List.flatMap_cons, hevents, reports_congr hcount hlength, List.nil_append]

/-- A completed sector is reported before those that follow. -/
theorem SectorReports.of_completed {b : Byte} (h : SectorReports (completed b s) t bytes) (hlevel : s.level = 2351) :
    SectorReports s t (b :: bytes) := by
  obtain ⟨new, k, hnew, hk, hevents⟩ := h
  have hanswer : (completed b s).answers =
      s.answers ++ [⟨.ok 0#64, [Claims.progressOf (s.bytesConsumed + 2352#64) s.frameLength]⟩] := by
    simp [progressEvent_eq]
  have hempty : (completed b s).level = 0 := by simp
  refine ⟨_ :: new, k + 1, by rw [hnew, hanswer, ← List.append_cons], ?_, ?_⟩
  · rw [hempty] at hk
    rw [hlevel, List.length_cons]
    omega
  · rw [List.flatMap_cons, hevents, reports_succ (u := completed b s) (by simp) (by simp), List.singleton_append]

/-- Every stream, from every state that takes one. -/
theorem Streaming.runAll_reports {r : List Instr} (hs : Streaming s) (hr : ∀ i ∈ r, isStream i = true) :
    ∃ t, runAll r s = .next t ∧ SectorReports s t (dataOf r) := by
  obtain ⟨t, hrun, -, hreports⟩ := runAll_stream_induct SectorReports
    (nil := fun s _ => .refl s [])
    (chunk := fun s _ _ _ _ h => h.of_silent (r := .ok 0#64) (by simp) (by simp) (by simp) (by simp [State.level]))
    (below := fun s _ _ _ _ _ h => h.of_silent (r := .ok 0#64) (by simp) (by simp) (by simp)
      (by rw [respond_level, countSample_level, appendByte_level, List.length_cons]; omega))
    (full := fun _ _ _ _ _ hlevel h => h.of_completed hlevel)
    r s hs hr
  exact ⟨t, hrun, hreports⟩

/-- Every stream, from every `Running` state with its FIFO in form: the bytes before the first `CHUNK` are rejected. -/
theorem runAll_stream_reports {r : List Instr} (hrunning : s.st = .running) (hlevel : s.level ≤ 2351)
    (hr : ∀ i ∈ r, isStream i = true) : ∃ t, runAll r s = .next t ∧ SectorReports s t (dataOf r) := by
  cases hvalid : s.firstValid
  case true => exact Streaming.runAll_reports ⟨hrunning, hvalid, hlevel⟩ hr
  induction r generalizing s with
  | nil => exact ⟨s, rfl, .refl s []⟩
  | cons i is ih =>
    obtain ⟨hi, his⟩ := List.forall_mem_cons.mp hr
    cases i <;> simp only [isStream, Bool.false_eq_true] at hi
    case chunk offset =>
      obtain ⟨t, hrun, ht⟩ := (chunked_streaming offset hrunning hlevel).runAll_reports his
      exact ⟨t, (runAll_cons is (execChunk_running offset hrunning)).trans hrun,
        ht.of_silent (r := .ok 0#64) (by simp) (by simp) (by simp) (by simp [State.level, dataOf])⟩
    case byte b =>
      obtain ⟨t, hrun, ht⟩ := ih (s := rejectedState .state s) hrunning hlevel his hvalid
      exact ⟨t, (runAll_cons is (show exec (.byte b) s = _ from execByte_early b hvalid)).trans hrun,
        ht.of_silent rfl rfl rfl (by simp [dataOf])⟩

end Sys2Proof.Machine
end

section
namespace Sys2Proof.Claims
open Sys2Proof.Machine

/-- Settles O27: the report of the drained sector, read as numbers. -/
theorem progressIsTheExactRatio : Obligations.ProgressIsTheExactRatio := by
  intro s b hrunning hvalid hlevel hlength
  refine ⟨_, _, s.frameLength, execByte_complete b hrunning hvalid hlevel,
    by rw [respond_lastAnswer, progressEvent_completed, progressOf_eq hlength], ?_, ?_⟩
  · rw [clampedSamples_toNat, BitVec.toNat_add, toInt_eq_toNat_of_nonneg hlength, Nat.cast_min]
    rfl
  · exact (toInt_eq_toNat_of_nonneg hlength).symm

/-- Settles O28: every other command is quiet, and the completing `BYTE` answers with its report. -/
theorem progressOnlyFromADrain : Obligations.ProgressOnlyFromADrain := by
  intro i s t h
  constructor
  · rintro ⟨num, den, a, -, hanswer, hmem⟩
    refine (exec_quiet_or_drains h).resolve_left fun ⟨a', hanswer', hquiet⟩ => ?_
    obtain rfl : a = a' := List.singleton_inj.mp (List.append_cancel_left (hanswer.symm.trans hanswer'))
    exact hquiet num den hmem
  · rintro ⟨hop, hrunning, hvalid, hlevel⟩
    cases i <;> cases hop
    cases (execByte_complete _ hrunning hvalid hlevel).symm.trans h
    exact ⟨_, _, _, respond_lastAnswer _ _ _, by simp, List.mem_singleton_self _⟩

/-- Settles O29: the events of a stream are the reports of its sectors in order, and a sector further on has more
samples before it. -/
theorem progressNeverFalls : Obligations.ProgressNeverFalls := by
  intro s r hinv hrunning hr hwrap
  obtain ⟨t, hrun, new, k, hnew, hk, hevents⟩ := runAll_stream_reports hrunning hinv.level_le hr
  have hlength : 0 ≤ s.frameLength.toInt := signed64_eq_toInt s.frameLength ▸ hinv.resolved_length (.inl hrunning)
  rw [reports_eq hlength (by omega)] at hevents
  refine ⟨t, new, hrun, hnew, ?_, ?_⟩ <;> rw [hevents]
  · refine List.pairwise_map.mpr (List.pairwise_lt_range.imp fun hlt => ⟨_, _, rfl, rfl, ?_⟩)
    rw [clampedSamples_toNat, clampedSamples_toNat]
    exact min_le_min_right _ (by omega)
  · refine List.forall_mem_map.mpr fun j _ => ⟨_, rfl, ?_⟩
    rw [clampedSamples_toNat]
    exact min_le_right _ _

end Sys2Proof.Claims
end

section
/-! SUPPORT. The stream of a collaborator that keeps its contract: it ends on a sample boundary, at the offset that its
samples reach (70_reset_and_hazards.md R285), and the samples missing there are the rest of the range (43_session.md
R201). -/

namespace Sys2Proof.Machine

variable {s t u : State}

theorem SameSession.refl (s : State) : SameSession s s := ⟨rfl, rfl, rfl, rfl, rfl, rfl, rfl⟩

theorem SameSession.trans (h : SameSession s t) (h' : SameSession t u) : SameSession s u where
  alg := h'.alg.trans h.alg
  frameStart := h'.frameStart.trans h.frameStart
  frameLength := h'.frameLength.trans h.frameLength
  frameEnd := h'.frameEnd.trans h.frameEnd
  st := h'.st.trans h.st
  err := h'.err.trans h.err
  missing := h'.missing.trans h.missing

theorem SameSession.chunked (offset : Word64) (s : State) : SameSession s (chunked offset s) := by
  constructor <;> simp

/-- Every stream, from every state that takes one. -/
theorem runAll_stream_sameSession {r : List Instr} (hs : Streaming s) (hr : ∀ i ∈ r, isStream i = true) :
    ∃ t, runAll r s = .next t ∧ Streaming t ∧ SameSession s t :=
  runAll_stream_induct (fun s t _ => SameSession s t)
    (nil := fun s _ => .refl s)
    (chunk := fun s offset _ _ _ h => (SameSession.chunked offset s).trans h)
    (below := fun s b _ _ _ _ h => .trans (t := okState [] (pushed b s)) (by constructor <;> simp) h)
    (full := fun s b _ _ _ _ h => .trans (t := completed b s) (by constructor <;> simp) h)
    r s hs hr

/-- `t` follows from `s` by a stream that has just completed the sample before `offset`. -/
structure Reached (s t : State) (offset : Word64) : Prop where
  streaming : Streaming t
  boundary : t.level % 4 = 0
  session : SameSession s t
  next : t.nextSampleOffset = offset

/-- A chunk of whole samples, from a sample boundary. -/
theorem runAll_chunkPacket_reached (offset : Word64) {bytes : List Byte} (hrunning : s.st = .running)
    (hlevel : s.level ≤ 2351) (hboundary : s.level % 4 = 0) (hwhole : bytes.length % 4 = 0) :
    ∃ t, runAll (chunkPacket offset bytes) s = .next t ∧
      Reached s t (offset + BitVec.ofNat 64 (bytes.length / 4)) := by
  have hr : ∀ i ∈ bytes.map Instr.byte, isStream i = true := List.forall_mem_map.mpr fun _ _ => rfl
  obtain ⟨t, hrun, ht, hsame⟩ := runAll_stream_sameSession (chunked_streaming offset hrunning hlevel) hr
  have hpacket : runAll (chunkPacket offset bytes) s = .next t :=
    (runAll_cons _ (execChunk_running offset hrunning)).trans hrun
  obtain ⟨u, hu, hnext⟩ := Claims.offsetCountsWholeSamples s offset bytes hrunning hlevel hboundary
  cases hpacket.symm.trans hu
  obtain ⟨u, hu, hfifo, -⟩ := Claims.fifoHoldsTheTail s offset (bytes.map .byte) hrunning hlevel hr
  cases hpacket.symm.trans hu
  refine ⟨t, hpacket, ht, ?_, (SameSession.chunked offset s).trans hsame, hnext⟩
  rw [State.level] at hboundary
  rw [State.level, hfifo, dataOf_bytes, List.length_drop, List.length_append]
  omega

/-- A stream of one chunk or more that keeps the contract. -/
theorem runAll_contractStream_reached {start : Word64} {c : List Byte} {cs : List (List Byte)}
    (hrunning : s.st = .running) (hlevel : s.level ≤ 2351) (hboundary : s.level % 4 = 0)
    (hwhole : wholeChunks (c :: cs) = true) :
    ∃ t, runAll (contractStream start (c :: cs)) s = .next t ∧
      Reached s t (start + BitVec.ofNat 64 ((c :: cs).flatten.length / 4)) := by
  induction cs generalizing s c start with
  | nil =>
    have hc : c.length % 4 = 0 := by simp_all [wholeChunks]
    simpa [contractStream] using runAll_chunkPacket_reached start hrunning hlevel hboundary hc
  | cons d ds ih =>
    obtain ⟨hc, hds⟩ : c.length % 4 = 0 ∧ wholeChunks (d :: ds) = true := by simp_all [wholeChunks]
    obtain ⟨u, hrun, hu⟩ := runAll_chunkPacket_reached start hrunning hlevel hboundary hc
    obtain ⟨t, hrun', ht⟩ := ih (start := start + BitVec.ofNat 64 (c.length / 4)) hu.streaming.running
      hu.streaming.level_le hu.boundary hds
    refine ⟨t, (runAll_append _ hrun).trans hrun', ht.streaming, ht.boundary, hu.session.trans ht.session, ?_⟩
    have hsamples : (c :: d :: ds).flatten.length / 4 = c.length / 4 + (d :: ds).flatten.length / 4 := by
      rw [List.flatten_cons, List.length_append]
      omega
    rw [ht.next, hsamples, BitVec.ofNat_add, BitVec.add_assoc]

/-! ## What is missing there -/

/-- After `n` samples of the range, the rest of it is missing. -/
theorem missingSamples_eq {start length : Word64} {n : Nat} (hend : s.frameEnd = start + length - 1#64)
    (hnext : s.nextSampleOffset = start + BitVec.ofNat 64 n) : missingSamples s = length - BitVec.ofNat 64 n := by
  rw [missingSamples, lastOffset, hend, hnext, sub_sub_sub_cancel_right, add_sub_add_left_eq_sub]

theorem missingSamples_eq_zero_iff : missingSamples s = 0#64 ↔ lastOffset s = s.frameEnd :=
  sub_eq_zero.trans eq_comm

/-- Whether the range is whole, on a sample boundary, is a matter of the number of samples. -/
theorem sub_ofNat_eq_zero_iff {length : Word64} {n : Nat} (hlength : 0 ≤ length.toInt) (hn : n < 2 ^ 64) :
    length - BitVec.ofNat 64 n = 0#64 ↔ (n : Int) = length.toInt := by
  refine sub_eq_zero.trans ?_
  rw [toInt_eq_toNat_of_nonneg hlength, Int.ofNat_inj, ← BitVec.toNat_inj, BitVec.toNat_ofNat,
    Nat.mod_eq_of_lt hn, eq_comm]

theorem ofInt_sub_natCast (length : Word64) (n : Nat) :
    BitVec.ofInt 64 (length.toInt - n) = length - BitVec.ofNat 64 n := by
  apply BitVec.eq_of_toInt_eq
  rw [← BitVec.ofInt_natCast, BitVec.toInt_ofInt, BitVec.toInt_sub, BitVec.toInt_ofInt, Int.sub_bmod_bmod]

end Sys2Proof.Machine
end

section
namespace Sys2Proof.Claims
open Sys2Proof.Machine

/-- Settles O33: the stream ends on a sample boundary after `n` samples, so that `EOS` compares `frameStart + n` with
the end of the range. -/
theorem truncationUnderTheContract : Obligations.TruncationUnderTheContract := by
  intro s chunks hfresh hne hwhole hn
  obtain ⟨c, cs, rfl⟩ := List.exists_cons_of_ne_nil hne
  obtain ⟨hfifo, -⟩ := hfresh.inv.no_chunk hfresh.no_chunk
  have hlength : 0 ≤ s.frameLength.toInt :=
    signed64_eq_toInt s.frameLength ▸ hfresh.inv.resolved_length (.inl hfresh.running)
  obtain ⟨t, hrun, ht⟩ := runAll_contractStream_reached (start := s.frameStart) hfresh.running hfresh.inv.level_le
    (by rw [State.level, hfifo]; rfl) hwhole
  have hmissing : missingSamples t = s.frameLength - BitVec.ofNat 64 ((c :: cs).flatten.length / 4) :=
    missingSamples_eq (ht.session.frameEnd.trans (hfresh.inv.resolved_end (.inl hfresh.running))) ht.next
  have hcount : lastOffset t = t.frameEnd ↔
      (((c :: cs).flatten.length / 4 : Nat) : Int) = s.frameLength.toInt := by
    rw [← missingSamples_eq_zero_iff, hmissing, sub_ofNat_eq_zero_iff hlength hn]
  have heos : runAll (contractStream s.frameStart (c :: cs) ++ [.eos]) s = runAll [.eos] t := runAll_append _ hrun
  have hfinal : exec .eos t = finalize t := ht.streaming.exec_eos ht.boundary
  rw [heos, ofInt_sub_natCast, ← hmissing]
  by_cases hcomplete : lastOffset t = t.frameEnd
  · have hnone : t.err = none := ht.session.err.trans
      (hfresh.inv.err_eq_none (by simp [hfresh.running]) (by simp [hfresh.running]))
    have hzero : t.missing = 0#64 := ht.session.missing.trans
      (hfresh.inv.missing_eq_zero (by simp [hfresh.running]))
    refine ⟨_, runAll_cons [] (hfinal.trans (finalize_whole hcomplete)), rfl, ?_, ?_⟩
    · exact iff_of_false (by simp [hnone]) (not_not.mpr (hcount.mp hcomplete))
    · exact hzero.trans (missingSamples_eq_zero_iff.mpr hcomplete).symm
  · exact ⟨_, runAll_cons [] (hfinal.trans (finalize_truncated hcomplete)), rfl,
      iff_of_true rfl (mt hcount.mpr hcomplete), rfl⟩

end Sys2Proof.Claims
end

section
/-! SUPPORT. The readout: which numbers have a value, what `RD` answers for each kind of number, and where the running
checksum shows (44_readout.md R230 to R232). -/

namespace Sys2Proof.Machine

variable {s : State} {reg : Byte} {v : Word64}

/-! ## The value of a register number -/

theorem regValue_reserved (h : 14 < reg.toNat) : regValue reg s = none := by
  unfold regValue
  split
  case h_16 => rfl
  all_goals omega

theorem exists_regValue (h : reg.toNat ≤ 14) (s : State) : ∃ v, regValue reg s = some v := by
  unfold regValue
  generalize reg.toNat = number at h
  interval_cases number <;> exact ⟨_, rfl⟩

/-- `ACC` is the value of number 2 and of no other number (R231). -/
theorem regValue_acc_irrelevant (h : reg ≠ 2#8) (s : State) (acc : Word32) :
    regValue reg { s with acc := acc } = regValue reg s := by
  unfold regValue
  split
  case h_3 hreg => exact absurd (BitVec.eq_of_toNat_eq hreg) h
  all_goals rfl

/-- `value(5)`, the two track registers side by side, as the number R231 gives. -/
theorem track_value_eq (number count : Byte) :
    ((count ++ number).setWidth 64 : Word64) = BitVec.ofNat 64 (number.toNat + 256 * count.toNat) := by
  apply BitVec.eq_of_toNat_eq
  rw [BitVec.toNat_setWidth, BitVec.toNat_ofNat, BitVec.toNat_append, ← Nat.shiftLeft_add_eq_or_of_lt number.isLt,
    Nat.shiftLeft_eq]
  omega

/-- `value(14)`, the flag as a number (R231). -/
theorem flag_value_eq (b : Bool) : ((BitVec.ofBool b).setWidth 64 : Word64) = if b then 1#64 else 0#64 := by
  cases b <;> rfl

/-! ## The answer -/

theorem rdResponse_reserved (h : 14 < reg.toNat) : rdResponse reg s = .rejected .operand := by
  rw [rdResponse, regValue_reserved h]

/-- Outside `Stopped` the result is gated (R232). -/
theorem rdResponse_gated (h : s.st ≠ .stopped) : rdResponse 2#8 s = .rejected .state :=
  if_pos ⟨rfl, h⟩

theorem rdResponse_value (hv : regValue reg s = some v) (hgate : reg = 2#8 → s.st = .stopped) :
    rdResponse reg s = .ok v := by
  have hopen : ¬ (reg.toNat = 2 ∧ s.st ≠ .stopped) := fun ⟨hreg, hst⟩ =>
    hst (hgate (BitVec.eq_of_toNat_eq hreg))
  simp only [rdResponse, hv, if_neg hopen]

/-- Outside `Stopped` the answer is the same whatever `ACC` holds: number 2 is gated, and no other number reads it. -/
theorem rdResponse_acc_irrelevant (h : s.st ≠ .stopped) (reg : Byte) (acc : Word32) :
    rdResponse reg { s with acc := acc } = rdResponse reg s := by
  by_cases hreg : reg = 2#8
  · rw [hreg, rdResponse_gated h]
    exact rdResponse_gated h
  · rw [rdResponse, rdResponse, regValue_acc_irrelevant hreg]

/-! ## The command and its word -/

theorem exec_rd {r : Response} (h : rdResponse reg s = r) : exec (.rd reg) s = .next (s.respond r []) := by
  rw [← h]
  exact execRd_eq reg

/-- Every number but 2 is read in every state. -/
theorem exec_rd_ungated (hreg : reg ≠ 2#8) (hv : regValue reg s = some v) :
    exec (.rd reg) s = .next (s.respond (.ok v) []) :=
  exec_rd (rdResponse_value hv fun h => absurd h hreg)

/-- The operand of `RD` is a register number when bits 63 to 8 are zero (30_encoding.md R95). -/
theorem rd_operand_reserved_iff (x : Word64) : x &&& Opcode.rd.reservedMask = 0#64 ↔ x >>> 8 = 0#64 :=
  byte_operand_reserved_iff x

end Sys2Proof.Machine
end

section
namespace Sys2Proof.Claims
open Sys2Proof.Machine

/-- Settles O47: `RD` always answers with `rdResponse`, which outside `Stopped` does not read `ACC`. -/
theorem runningChecksumIsHidden : Obligations.RunningChecksumIsHidden := by
  intro s reg acc hstate
  exact ⟨rdResponse reg s, exec_rd rfl, exec_rd (rdResponse_acc_irrelevant hstate reg acc)⟩

/-- Settles O44: the three answers of `rdResponse`, and the word of a command that is legal in every state. -/
theorem rdAnswersOrRefuses : Obligations.RdAnswersOrRefuses := by
  refine ⟨fun s reg hreserved => exec_rd (rdResponse_reserved hreserved),
    fun s hgated => exec_rd (rdResponse_gated hgated), fun s reg hreg hgate => ?_, fun s x rest => ?_⟩
  · obtain ⟨v, hv⟩ := exists_regValue hreg s
    exact ⟨v, hv, exec_rd (rdResponse_value hv hgate)⟩
  · refine (step_word (s := offering _ rest s) .rd x rfl (p := True) (iff_of_true rfl trivial)).trans ?_
    rw [if_neg (not_not.mpr trivial)]
    exact ite_congr (congrArg Not (propext (rd_operand_reserved_iff x))) (fun _ => rfl) fun _ => rfl

/-- Settles O45: `regValue` gives each number its register, and only number 2 is gated. -/
theorem rdReadsEveryRegister : Obligations.RdReadsEveryRegister := by
  intro s
  rw [← track_value_eq, ← flag_value_eq]
  exact ⟨exec_rd_ungated (by decide) rfl, exec_rd_ungated (by decide) rfl,
    fun hstopped => exec_rd (rdResponse_value rfl fun _ => hstopped),
    exec_rd_ungated (by decide) rfl, exec_rd_ungated (by decide) rfl, exec_rd_ungated (by decide) rfl,
    exec_rd_ungated (by decide) rfl, exec_rd_ungated (by decide) rfl, exec_rd_ungated (by decide) rfl,
    exec_rd_ungated (by decide) rfl, exec_rd_ungated (by decide) rfl, exec_rd_ungated (by decide) rfl,
    exec_rd_ungated (by decide) rfl, exec_rd_ungated (by decide) rfl, exec_rd_ungated (by decide) rfl⟩

end Sys2Proof.Claims
end

section
/-! SUPPORT. What an answer says of the command it ends: a rejection stands for no effect, and `OK` for execution
(30_encoding.md R101, 60_exceptions.md R249). -/

namespace Sys2Proof.Machine

variable {s t : State}

/-- How a command ends: rejected, with nothing done and no event; or executed and answered `OK`. -/
inductive Ends (s : State) : State → Prop where
  | rejected (r : Reason) : Ends s (rejectedState r s)
  | executed (v : Word64) (events : List Event) (u : State) : Ends s (u.respond (.ok v) events)

/-- An answer `REJECTED` is the rejection's and no executed command's. -/
theorem Ends.eq_rejectedState {r : Reason} {events : List Event} (h : Ends s t)
    (hlast : t.lastAnswer = some { response := .rejected r, events := events }) : t = rejectedState r s := by
  cases h with
  | rejected r' =>
    obtain ⟨rfl, -⟩ : r' = r ∧ [] = events := by simpa using hlast
    rfl
  | executed => simp at hlast

/-- `RD` is rejected or answered with the value, as `rdResponse` says. -/
theorem respond_rdResponse_ends (reg : Byte) (s : State) : Ends s (s.respond (rdResponse reg s) []) := by
  cases rdResponse reg s with
  | ok v => exact .executed v [] s
  | rejected r => exact .rejected r

theorem exec_ends {i : Instr} (h : exec i s = .next t) : Ends s t := by
  cases i
  case setalg => obtain rfl | ⟨-, rfl⟩ := execSetalg_next h <;> constructor
  case settrk => obtain rfl | ⟨-, rfl⟩ := execSettrk_next h <;> constructor
  case setstart => obtain rfl | ⟨-, rfl⟩ := execSetstart_next h <;> constructor
  case setlen => obtain rfl | ⟨-, rfl⟩ := execSetlen_next h <;> constructor
  case notfound => obtain rfl | ⟨-, rfl⟩ := execNotfound_next h <;> constructor
  case start => obtain rfl | ⟨-, -, rfl⟩ | ⟨-, -, rfl⟩ := execStart_next h <;> constructor
  case duration => obtain rfl | ⟨-, -, rfl⟩ | ⟨-, _, -, rfl⟩ := execDuration_next h <;> constructor
  case cancel => obtain rfl | ⟨-, rfl⟩ := execCancel_next h <;> constructor
  case chunk => obtain rfl | ⟨-, rfl⟩ := execChunk_next h <;> constructor
  case byte => obtain rfl | ⟨-, -, -, rfl⟩ | ⟨-, -, -, rfl⟩ := execByte_next h <;> constructor
  case eos =>
    obtain rfl | ⟨-, -, rfl⟩ | ⟨-, -, -, rfl⟩ | ⟨-, -, -, -, rfl⟩ | ⟨-, -, -, -, rfl⟩ := execEos_next h <;> constructor
  case rd reg =>
    cases (execRd_eq reg).symm.trans h
    exact respond_rdResponse_ends reg s

/-- A step that takes a word ends as a command does, whether or not the word decodes to one. -/
theorem step_ends {w : CmdWord} {rest : List CmdWord} (hport : s.cmdPort = w :: rest) (h : step s = .next t) :
    Ends (s.withPort rest) t := by
  obtain ⟨hidle, -⟩ | ⟨w', rest', hport', hword⟩ := step_next h
  · cases hport.symm.trans hidle
  · cases hport.symm.trans hport'
    obtain ⟨i, -, hexec⟩ | ⟨-, r, rfl⟩ := hword
    · exact exec_ends hexec
    · exact .rejected r

/-! ## The states that hold an error -/

/-- A recorded error has ended the task. -/
theorem Inv.terminal_of_err (h : Inv s) {e : TaskError} (herr : s.err = some e) : s.Terminal := by
  by_contra hopen
  obtain ⟨hstop, hfail⟩ := not_or.mp hopen
  cases herr.symm.trans (h.err_eq_none hstop hfail)

/-! ## What `CHUNK`, `BYTE` and `RD` do to `firstValid` (10_state.md R33) -/

/-- The commands that are executed in `Running` without leaving it. -/
abbrev KeepsRunning (i : Instr) : Prop := i.opcode = .chunk ∨ i.opcode = .byte ∨ i.opcode = .rd

theorem exec_keepsRunning_st {i : Instr} (hi : KeepsRunning i) (h : exec i s = .next t) : t.st = s.st := by
  have hop : i.opcode ∉ [.notfound, .start, .duration, .cancel, .eos] := by
    rcases hi with hi | hi | hi <;> rw [hi] <;> decide
  exact (exec_keeps_lifecycle h hop).1

/-- `firstValid` stays false in `Running` exactly when the command is no `CHUNK`. -/
theorem exec_firstValid_false_iff {i : Instr} (hrunning : s.st = .running) (h : exec i s = .next t) :
    t.firstValid = false ↔ i.opcode ≠ .chunk ∧ s.firstValid = false := by
  by_cases hop : i.opcode = .chunk
  · cases i <;> cases hop
    cases (execChunk_running _ hrunning).symm.trans h
    simp [Instr.opcode]
  · obtain ⟨-, -, -, -, -, -, -, -, -, -, -, hvalid, -⟩ := Claims.onlyTheMatrixWrites i s t h
    rw [not_imp_comm.mp hvalid hop]
    exact (and_iff_right hop).symm

/-- A run of these commands ends in `Running`, and `firstValid` tells whether a `CHUNK` was among them. -/
theorem runAll_keepsRunning : ∀ (r : List Instr) {s : State}, Inv s → s.st = .running → (∀ i ∈ r, KeepsRunning i) →
    ∃ t, runAll r s = .next t ∧ Inv t ∧ t.st = .running ∧
      (t.firstValid = false ↔ (∀ i ∈ r, i.opcode ≠ .chunk) ∧ s.firstValid = false)
  | [], s, hinv, hrunning, _ => ⟨s, rfl, hinv, hrunning, by simp⟩
  | i :: r, s, hinv, hrunning, hr => by
    obtain ⟨hi, hrest⟩ := List.forall_mem_cons.mp hr
    obtain ⟨u, hexec⟩ := exec_total i (Nat.lt_succ_of_le hinv.level_le)
    obtain ⟨t, hrun, hinv', hrunning', hvalid⟩ := runAll_keepsRunning r (exec_keeps_inv hinv hexec)
      ((exec_keepsRunning_st hi hexec).trans hrunning) hrest
    refine ⟨t, (runAll_cons r hexec).trans hrun, hinv', hrunning', ?_⟩
    rw [hvalid, exec_firstValid_false_iff hrunning hexec, List.forall_mem_cons, ← and_assoc,
      and_comm (a := ∀ j ∈ r, j.opcode ≠ .chunk)]

end Sys2Proof.Machine
end

section
namespace Sys2Proof.Claims
open Sys2Proof.Machine

/-- Settles O7: there is no word to accept. -/
theorem idleStepChangesNothing : Obligations.IdleStepChangesNothing := by
  intro s hport
  rw [step, acceptWord_nil hport]

/-- Settles O10: of the ways a step that takes a word can end, only the rejection answers `REJECTED`. -/
theorem rejectedWordChangesNothing : Obligations.RejectedWordChangesNothing :=
  fun _ _ _ _ _ _ hport hstep hlast => (step_ends hport hstep).eq_rejectedState hlast

/-- Settles O58: under the invariant a state that holds an error is terminal, and no step changes its registers. -/
theorem errorIsWrittenOnce : Obligations.ErrorIsWrittenOnce := by
  intro s t e hinv herr hstep
  obtain ⟨-, hfinal⟩ := terminalStatesAreFinal s (hinv.terminal_of_err herr)
  rw [hfinal t hstep]
  exact ⟨herr, rfl, rfl⟩

/-- In `Running`, with no error recorded, the first test of `EOS` alone records `NoDataError` (60_exceptions.md
R245, R252). -/
theorem exec_eos_noData_iff {s t : State} (hrunning : s.st = .running) (hnone : s.err = none)
    (h : exec .eos s = .next t) : t.err = some .noData ↔ s.firstValid = false := by
  obtain ⟨-, herr⟩ := Prod.ext_iff.mp (exec_transition (List.mem_singleton.mpr hrunning) h)
  rw [show t.err = (transition .eos s).2 from herr, transition]
  split_ifs with hnodata halignment htruncated <;> simp [hnodata, hnone]

/-- Settles O34: the commands before `EOS` keep `Running` with no error, and `firstValid` stays false exactly when
none of them was a `CHUNK`. -/
theorem noDataExactlyWithoutAChunk : Obligations.NoDataExactlyWithoutAChunk := by
  intro s r hfresh hr
  obtain ⟨t, hrun, hinv, hrunning, hvalid⟩ := runAll_keepsRunning r hfresh.inv hfresh.running hr
  obtain ⟨u, heos⟩ := exec_total .eos (Nat.lt_succ_of_le hinv.level_le)
  have hnone : t.err = none := hinv.err_eq_none (by simp [hrunning]) (by simp [hrunning])
  refine ⟨u, (runAll_append _ hrun).trans (runAll_cons [] heos), ?_⟩
  rw [exec_eos_noData_iff hrunning hnone heos, hvalid, and_iff_left hfresh.no_chunk]

/-- Settles O59: only `NOTFOUND`, `CANCEL` and `EOS` write `ERR`, and what each leaves is `s` with the error
recorded and announced. -/
theorem raisingAnErrorRecordsItOnly : Obligations.RaisingAnErrorRecordsItOnly := by
  intro i s t e hnone hexec herr
  have hop : i.opcode ∈ [.notfound, .cancel, .eos] := by
    obtain ⟨-, hwrites, -⟩ := onlyTheMatrixWrites i s t hexec
    exact hwrites (by simp [hnone, herr])
  have hkept : t.err ≠ s.err := by simp [hnone, herr]
  cases i
  case notfound =>
    obtain rfl | ⟨-, rfl⟩ := execNotfound_next hexec
    · exact absurd rfl hkept
    · cases herr
      exact ⟨_, List.mem_singleton.mpr rfl, rfl⟩
  case cancel =>
    obtain rfl | ⟨-, rfl⟩ := execCancel_next hexec
    · exact absurd rfl hkept
    · cases herr
      exact ⟨_, List.mem_append_right _ (List.mem_singleton.mpr rfl), rfl⟩
  case eos =>
    obtain rfl | ⟨-, -, rfl⟩ | ⟨-, -, -, rfl⟩ | ⟨-, -, -, -, rfl⟩ | ⟨-, -, -, -, rfl⟩ := execEos_next hexec
    · exact absurd rfl hkept
    · cases herr
      exact ⟨_, List.mem_singleton.mpr rfl, rfl⟩
    · cases herr
      exact ⟨_, List.mem_singleton.mpr rfl, rfl⟩
    · cases herr
      exact ⟨_, List.mem_cons_self, rfl⟩
    · exact absurd rfl hkept
  all_goals simp [Instr.opcode] at hop

end Sys2Proof.Claims
end

section
/-! SUPPORT. One step as a whole: that it always ends in a next state, and what it leaves on the port and among the
answers (70_reset_and_hazards.md R300, 30_encoding.md R91). -/

namespace Sys2Proof.Machine

variable {s t : State}

/-- With the FIFO in its form (10_state.md R41 (a)) a step never stops: a word that is no command is rejected, and
every command answers. -/
theorem step_total (hlevel : s.level < 2352) : ∃ t, step s = .next t := by
  cases hport : s.cmdPort with
  | nil => exact ⟨s, Claims.idleStepChangesNothing s hport⟩
  | cons w rest =>
    simp only [step, acceptWord_cons hport]
    cases decode w with
    | instr i => exact exec_total i hlevel
    | reservedOpcode c => exact ⟨_, rfl⟩
    | reservedBits op x =>
      cases hlegal : legalIn op (s.withPort rest).st
      · exact ⟨_, whenLegal_of_illegal hlegal _⟩
      · exact ⟨_, whenLegal_of_legal hlegal _⟩

/-- A step that takes a word adds one answer and leaves the words behind it. -/
theorem step_answers_once {w : CmdWord} {rest : List CmdWord} (hport : s.cmdPort = w :: rest)
    (h : step s = .next t) : (∃ a, t.answers = s.answers ++ [a]) ∧ t.cmdPort = rest := by
  obtain ⟨hidle, -⟩ | ⟨w', rest', hport', hword⟩ := step_next h
  · cases hport.symm.trans hidle
  · cases hport.symm.trans hport'
    obtain ⟨i, -, hexec⟩ | ⟨-, r, rfl⟩ := hword
    · exact exec_next hexec
    · exact ⟨⟨_, rfl⟩, rfl⟩

end Sys2Proof.Machine
end

section
namespace Sys2Proof.Claims
open Sys2Proof.Machine

/-- Settles O9: a FIFO of at most 2351 bytes has room for any next byte, so the step does not stop, and then it adds
exactly one answer. -/
theorem everyAcceptedWordIsAnsweredOnce : Obligations.EveryAcceptedWordIsAnsweredOnce := by
  intro s w rest hlevel hport
  obtain ⟨t, hstep⟩ := step_total (Nat.lt_succ_of_le hlevel)
  obtain ⟨⟨a, hanswers⟩, hrest⟩ := step_answers_once hport hstep
  exact ⟨t, a, hstep, hanswers, hrest⟩

/-- Settles O54: the invariant's bound on the FIFO shuts out the fault, and every step keeps the invariant. -/
theorem stepNeverStops : Obligations.StepNeverStops := by
  intro s hinv
  obtain ⟨t, hstep⟩ := step_total (Nat.lt_succ_of_le hinv.level_le)
  exact ⟨t, hstep, stepKeepsTheInvariant s t hinv hstep⟩

end Sys2Proof.Claims
end
